-- ==== Sys2Proof/Word.lean ====
section
/-! DEFINITION. The value types of the block (00_scope.md section 4): every value is unsigned. -/

namespace Sys2Proof

/-- A byte, 0..255 (00_scope.md section 4). -/
abbrev Byte := BitVec 8

/-- A word12, 0..4095: one greyscale value (00_scope.md section 4). -/
abbrev Word12 := BitVec 12

/-- A 16-bit element of an ENCODE_GS payload (R84): wide enough to hold an out-of-range value. -/
abbrev Value16 := BitVec 16

/-- A command word (R81). -/
abbrev Word32 := BitVec 32

/-- A Greyscale Frame: an ordered sequence of bytes (R50). -/
abbrev Frame := List Byte

end Sys2Proof
end

