-- ==== Sys2Proof/Config.lean ====
section
/-! DEFINITION. The implementation parameters of 00_scope.md R8 (the element CONFIG of R20 and R32). They are fixed when the
block is built and never change. A model takes each open parameter as an argument, so a `Config` is a value that the state
carries: a claim about every state is a claim about every configuration. -/

namespace Sys2Proof

/-- `POL_<line>` (R8, R23): true where asserted is the high electrical level of that line. No rule depends on it. -/
structure Polarity where
  blank : Bool
  latch : Bool
  gsclk : Bool
  prog : Bool
  sclk : Bool
  sdata : Bool
  aux : Bool
  deriving DecidableEq, Repr

/-- `SPI_MODE` (R8). The spec describes this one mode: SCLK idles de-asserted and the chain samples SDATA on the SCLK assert
edge (D4). -/
inductive SpiMode where
  | idleZeroSampleOnAssert
  deriving DecidableEq, Repr

/-- `BLANK_ORDER` (R8): whether TRANSMIT asserts BLANK before the shift (R147) or after it (R148). -/
inductive BlankOrder where
  | contract
  | reference
  deriving DecidableEq, Repr

/-- The element CONFIG (R20, R32): the parameters of R8. -/
structure Config where
  /-- N, the number of chips in the chain. -/
  n : Nat
  /-- `POL_<line>`. -/
  polarity : Polarity
  /-- `SPI_MODE`. -/
  spiMode : SpiMode
  /-- `BLANK_ORDER`. -/
  blankOrder : BlankOrder
  /-- `N_AUX`, 0 or 1: whether the line AUX exists (R24). -/
  nAux : Fin 2
  /-- `DP_STRIDE_BYTES`, the distance in bytes between two symbol positions (R122). -/
  dpStride : Nat
  /-- `F_SCLK`, the serial clock rate. The model is untimed and no rule reads it (R260). -/
  fSclk : Nat
  deriving DecidableEq, Repr

/-- `CH` (R8). -/
def Config.ch : Nat := 16

/-- `GSW` (R8). -/
def Config.gsw : Nat := 12

/-- `MAX_COUNT` (R8, R83): the largest element count of one command. -/
def Config.maxCount : Nat := 65535

/-- The number of outputs of the chain, 16N (00_scope.md section 5, R37). -/
def Config.outputs (c : Config) : Nat := 16 * c.n

/-- The number of bit cells of the chain's shift register, 192N (R35). -/
def Config.cells (c : Config) : Nat := 192 * c.n

/-- `FRAME_BYTES` = 24 × N (R8). -/
def Config.frameBytes (c : Config) : Nat := 24 * c.n

/-- The number of events of a TRANSMIT, 576N + 6: the longest event list of a command (R28, R147). -/
def Config.txLength (c : Config) : Nat := 576 * c.n + 6

/-- The constraints R8 puts on the parameters: N ≥ 1 and 24 × N ≤ MAX_COUNT, so N ≤ 2730. -/
abbrev Config.legal (c : Config) : Prop := 1 ≤ c.n ∧ c.frameBytes ≤ Config.maxCount

/-- The default of every line is active-high (R8, D1; the reason given there is general knowledge, G3). -/
def Polarity.default : Polarity := ⟨true, true, true, true, true, true, true⟩

/-- The defaults of R8. N and F_SCLK are open there: the values here are DESIGN CHOICES of notes/assumptions/1.md and 2.md. -/
def Config.default : Config where
  n := 1
  polarity := Polarity.default
  spiMode := .idleZeroSampleOnAssert
  blankOrder := .contract
  nAux := 0
  dpStride := 12
  fSclk := 1

end Sys2Proof
end

