-- ==== Sys2Proof/Syntax.lean ====
section
/-! DEFINITION. The five host commands (R80) and the form in which they reach the block (R81, R84, R85). -/

namespace Sys2Proof

/-- One payload element, of one of the three types of R84. -/
inductive Elem where
  /-- A flag of an Output Specification: 0 = off, 1 = on. -/
  | flag (b : Bool)
  /-- A 16-bit channel value. -/
  | value (v : Value16)
  /-- A byte of a frame. -/
  | byte (b : Byte)
  deriving DecidableEq, Repr

/-- What the host presents: a command word and a list of payload elements (R85). -/
structure Command where
  word : Word32
  payload : List Elem
  deriving DecidableEq, Repr

/-- The commands of R80, one constructor per row of the opcode table. Each carries the field `pos` of its word: the meaning
of every command but DP_OVERLAY begins by checking that it is 0 (R112, R116, R142, R146). -/
inductive Instr where
  /-- INIT (R142). It carries its `count` field, which must be 0; its payload elements are ignored (R85). -/
  | init (pos : BitVec 12) (count : BitVec 16)
  /-- ENCODE_ONOFF (R112): `flags` is the Output Specification S, output index 0 first. -/
  | encodeOnoff (pos : BitVec 12) (flags : List Bool)
  /-- ENCODE_GS (R116): `values` is V, output index 0 first. -/
  | encodeGs (pos : BitVec 12) (values : List Value16)
  /-- DP_OVERLAY (R122): the symbol position and the frame. -/
  | dpOverlay (pos : BitVec 12) (frame : Frame)
  /-- TRANSMIT (R146): the frame to shift into the chain. -/
  | transmit (pos : BitVec 12) (frame : Frame)
  deriving DecidableEq, Repr

end Sys2Proof
end

