-- ==== Sys2Proof/WellFormed.lean ====
section
/-! DEFINITION. Which instructions have an encoding: those whose payload length fits the 16-bit field `count` (R83). A
non-zero reserved field is no ground of ill-formedness: such a word is a command, which rejects itself (R89). -/

namespace Sys2Proof

/-- The number of payload elements of a command, the value of its field `count` (R81, R84). -/
def Instr.count : Instr → Nat
  | .init _ count => count.toNat
  | .encodeOnoff _ flags => flags.length
  | .encodeGs _ values => values.length
  | .dpOverlay _ frame => frame.length
  | .transmit _ frame => frame.length

/-- The command has a command word: its element count is at most MAX_COUNT (R83). -/
def Instr.wellFormed (i : Instr) : Bool := decide (i.count ≤ Config.maxCount)

end Sys2Proof
end

