-- ==== Sys2Proof/Decode.lean ====
section
/-! DEFINITION. The decoder of command words and payloads, and the encoder (30_encoding.md). -/

namespace Sys2Proof

/-- `op = word[31:28]` (R87). -/
def opField (word : Word32) : BitVec 4 := word.extractLsb' 28 4

/-- `pos = word[27:16]` (R87). -/
def posField (word : Word32) : BitVec 12 := word.extractLsb' 16 12

/-- `count = word[15:0]` (R87). -/
def countField (word : Word32) : BitVec 16 := word.extractLsb' 0 16

/-- What the decoder reads from a command. Decoding is total (R90): one of the five commands, or the block's rejection of a
reserved `op` (R88); a pair that is no command of the interface is named as such (R85). -/
inductive Decoded where
  /-- One of the five commands. -/
  | command (i : Instr)
  /-- `op` is 0x0 or 0x6..0xF: the block rejects the word with E_BAD_OP (R88). -/
  | badOp
  /-- The list does not have `count` elements: not a command of this interface (R85). -/
  | payloadLength
  /-- An element is not of the command's type: not a command of this interface (R84, R85). -/
  | payloadType
  deriving DecidableEq, Repr

/-- The flag an element holds, if it is one. -/
def Elem.flag? : Elem → Option Bool
  | .flag b => some b
  | .value _ => none
  | .byte _ => none

/-- The 16-bit value an element holds, if it is one. -/
def Elem.value? : Elem → Option Value16
  | .flag _ => none
  | .value v => some v
  | .byte _ => none

/-- The byte an element holds, if it is one. -/
def Elem.byte? : Elem → Option Byte
  | .flag _ => none
  | .value _ => none
  | .byte b => some b

/-- The payload as a list of one type, if every element is of that type (R84). -/
def collect {α : Type} (read : Elem → Option α) : List Elem → Option (List α)
  | [] => some []
  | e :: es =>
    match read e, collect read es with
    | some x, some xs => some (x :: xs)
    | _, _ => none

/-- The command with the payload read as `read` says, or `payloadType`. -/
def withPayload {α : Type} (read : Elem → Option α) (payload : List Elem) (make : List α → Instr) : Decoded :=
  match collect read payload with
  | some xs => .command (make xs)
  | none => .payloadType

/-- The five values of `op` (R82), and the reserved ones. INIT and a reserved `op` ignore the elements (R85). -/
def decodeOp (word : Word32) (payload : List Elem) : Decoded :=
  match (opField word).toNat with
  | 1 => .command (.init (posField word) (countField word))
  | 2 => withPayload Elem.flag? payload (.encodeOnoff (posField word))
  | 3 => withPayload Elem.value? payload (.encodeGs (posField word))
  | 4 => withPayload Elem.byte? payload (.dpOverlay (posField word))
  | 5 => withPayload Elem.byte? payload (.transmit (posField word))
  | _ => .badOp

/-- The decoder: total on every word and every list (R90). The list must have `count` elements (R85). -/
def decode (c : Command) : Decoded :=
  if c.payload.length = (countField c.word).toNat then decodeOp c.word c.payload else .payloadLength

/-- The `op` of a command (R80). -/
def Instr.op : Instr → BitVec 4
  | .init _ _ => 1
  | .encodeOnoff _ _ => 2
  | .encodeGs _ _ => 3
  | .dpOverlay _ _ => 4
  | .transmit _ _ => 5

/-- The field `pos` of a command (R81). -/
def Instr.pos : Instr → BitVec 12
  | .init pos _ => pos
  | .encodeOnoff pos _ => pos
  | .encodeGs pos _ => pos
  | .dpOverlay pos _ => pos
  | .transmit pos _ => pos

/-- The payload of a command (R84). INIT's elements are ignored (R85): the encoder gives bytes of 0. -/
def Instr.payload : Instr → List Elem
  | .init _ count => List.replicate count.toNat (.byte 0)
  | .encodeOnoff _ flags => flags.map .flag
  | .encodeGs _ values => values.map .value
  | .dpOverlay _ frame => frame.map .byte
  | .transmit _ frame => frame.map .byte

/-- A command word from its three fields: `oooo pppp pppp pppp cccc cccc cccc cccc` (R81). -/
def commandWord (op : BitVec 4) (pos : BitVec 12) (count : Nat) : Word32 := op ++ pos ++ BitVec.ofNat 16 count

/-- The encoder: the command word and payload of a well-formed instruction (R81). -/
def encode (i : Instr) : Command := ⟨commandWord i.op i.pos i.count, i.payload⟩

/-- An element of value 0, of the type that the command with this `op` takes (R84). -/
def zeroElem (op : BitVec 4) : Elem :=
  match op.toNat with
  | 2 => .flag false
  | 3 => .value 0
  | _ => .byte 0

/-- The command whose word is `w` and whose payload is `count` elements of value 0. -/
def tableCommand (w : Nat) : Command :=
  let word : Word32 := BitVec.ofNat 32 w
  ⟨word, List.replicate (countField word).toNat (zeroElem (opField word))⟩

/-- What the decoder reads from the bits `w` of an opcode-table row; the operand elements are zeros. -/
def decodeTableWord (_nbits w : Nat) : Option Instr :=
  match decode (tableCommand w) with
  | .command i => some i
  | .badOp => none
  | .payloadLength => none
  | .payloadType => none

end Sys2Proof
end

