-- ==== Sys2Proof/Machine/Frame.lean ====
section
/-! DEFINITION. The Greyscale Frame as a bit stream, the encoders' packing, and the decimal-point overlay (20_memory.md
section 1, 40_encoder.md). Pure functions: no state is read or written (R2, R61). -/

namespace Sys2Proof.Machine

/-- `bits8(b) = [b[7], ..., b[0]]` (R51). -/
def bits8 (b : Byte) : List Bool :=
  [b.getLsbD 7, b.getLsbD 6, b.getLsbD 5, b.getLsbD 4, b.getLsbD 3, b.getLsbD 2, b.getLsbD 1, b.getLsbD 0]

/-- `bits12(v) = [v[11], ..., v[0]]` (00_scope.md section 4). -/
def bits12 (v : Word12) : List Bool :=
  [v.getLsbD 11, v.getLsbD 10, v.getLsbD 9, v.getLsbD 8, v.getLsbD 7, v.getLsbD 6,
   v.getLsbD 5, v.getLsbD 4, v.getLsbD 3, v.getLsbD 2, v.getLsbD 1, v.getLsbD 0]

/-- The number whose binary digits are the list, most significant first. -/
def bitsValue (bits : List Bool) : Nat := bits.foldl (fun acc b => 2 * acc + b.toNat) 0

/-- `pack8`: byte j is `Σ b[8j+t] × 2^(7−t)` (00_scope.md section 4). It is used on lists of a multiple of 8 bits only: a
partial trailing byte is not a valid output (R58). -/
def pack8 : List Bool → Frame
  | b7 :: b6 :: b5 :: b4 :: b3 :: b2 :: b1 :: b0 :: rest =>
    BitVec.ofNat 8 (bitsValue [b7, b6, b5, b4, b3, b2, b1, b0]) :: pack8 rest
  | _ => []

/-- The bit stream of a frame: byte 0 first, most significant bit first (R51). -/
def stream (f : Frame) : List Bool := f.flatMap bits8

/-- Stream word k of a frame, its first bit the most significant (R52, R53). -/
def streamWord (f : Frame) (k : Nat) : Word12 := BitVec.ofNat 12 (bitsValue (((stream f).drop (12 * k)).take 12))

/-- The frame of an Output Specification: in reverse order, 12 equal bits per flag, packed (R112). -/
def onoffFrame (flags : List Bool) : Frame := pack8 (flags.reverse.flatMap fun f => List.replicate 12 f)

/-- The frame of a list of word12 values: in reverse order, most significant bit first, packed (R116). -/
def greyFrame (values : List Word12) : Frame := pack8 (values.reverse.flatMap bits12)

/-- `MemRead(F, j, 1)` (00_scope.md section 4), used inside the frame only. -/
def frameRead (f : Frame) (j : Nat) : Byte := f.getD j 0

/-- `MemWrite(F, j, 1, v)` (00_scope.md section 4). -/
def frameWrite (f : Frame) (j : Nat) (v : Byte) : Frame := f.set j v

/-- The decimal-point overlay at byte offset o: 0xFF ORed into byte o and 0xF0 into byte o + 1 (R122). -/
def overlayFrame (f : Frame) (o : Nat) : Frame :=
  frameWrite (frameWrite f o (frameRead f o ||| 0xFF#8)) (o + 1) (frameRead f (o + 1) ||| 0xF0#8)

end Sys2Proof.Machine
end

