-- ==== Sys2Proof/Machine/Lines.lean ====
section
/-! DEFINITION. The Control Line Set and the events that drive it (10_state.md section 2, 41_chip_link.md section 1). -/

namespace Sys2Proof.Machine

/-- The output lines of R21; AUX exists only if N_AUX = 1 (R24). -/
inductive Line where
  | blank
  | latch
  | gsclk
  | prog
  | sclk
  | sdata
  | aux
  deriving DecidableEq, Repr

/-- A logical level (R22), also the content of a chain cell (R35): 0 (de-asserted), 1 (asserted) or the spec's ⊥. -/
inductive Level where
  | zero
  | one
  | undef
  deriving DecidableEq, Repr

/-- The level a driven bit has. -/
def Level.ofBool (b : Bool) : Level := if b then .one else .zero

/-- The element LINES (R20, R21): the logical level LINK drives on each line. -/
structure Lines where
  blank : Level
  latch : Level
  gsclk : Level
  prog : Level
  sclk : Level
  sdata : Level
  /-- Only driven if N_AUX = 1 (R24); where the line does not exist it stays ⊥ and no rule reads it. -/
  aux : Level
  deriving DecidableEq, Repr

/-- Every line at ⊥: the levels when reset ends, before INIT's first event (R42). -/
def Lines.undriven : Lines := ⟨.undef, .undef, .undef, .undef, .undef, .undef, .undef⟩

/-- The level of one line. -/
def Lines.get (l : Lines) : Line → Level
  | .blank => l.blank
  | .latch => l.latch
  | .gsclk => l.gsclk
  | .prog => l.prog
  | .sclk => l.sclk
  | .sdata => l.sdata
  | .aux => l.aux

/-- The lines after one of them takes a level. -/
def Lines.set (l : Lines) (line : Line) (v : Level) : Lines :=
  match line with
  | .blank => { l with blank := v }
  | .latch => { l with latch := v }
  | .gsclk => { l with gsclk := v }
  | .prog => { l with prog := v }
  | .sclk => { l with sclk := v }
  | .sdata => { l with sdata := v }
  | .aux => { l with aux := v }

/-- `Set(l, v)`: drives line l to logical level v, 0 or 1 (R140). -/
structure Event where
  line : Line
  level : Bool
  deriving DecidableEq, Repr

/-- `LINES[l] <- v` (R140). -/
def Lines.drive (l : Lines) (e : Event) : Lines := l.set e.line (Level.ofBool e.level)

/-- The edge that driving a line makes (R140, R44). -/
inductive Edge where
  | assert
  | deassert
  | none
  deriving DecidableEq, Repr

/-- Driving a line at level `old` to 1 makes an assert edge unless it is at 1 already; driving it to 0 makes a de-assert edge
only from 1 (R140; ⊥ by R44). -/
def edgeOf (old : Level) (level : Bool) : Edge :=
  match level, old with
  | true, .one => .none
  | true, .zero => .assert
  | true, .undef => .assert
  | false, .one => .deassert
  | false, .zero => .none
  | false, .undef => .none

/-- The edge an event makes on lines `l`. -/
def Lines.edge (l : Lines) (e : Event) : Edge := edgeOf (l.get e.line) e.level

/-- `INIT_EVENTS` (R143). -/
def initEvents (c : Config) : List Event :=
  [⟨.blank, true⟩, ⟨.latch, false⟩, ⟨.gsclk, false⟩, ⟨.prog, false⟩, ⟨.sclk, false⟩, ⟨.sdata, false⟩]
    ++ if c.nAux = 1 then [⟨.aux, false⟩] else []

/-- Whether asserted is the high level of a line (`POL_<line>`, R8). -/
def polarityOf (p : Polarity) : Line → Bool
  | .blank => p.blank
  | .latch => p.latch
  | .gsclk => p.gsclk
  | .prog => p.prog
  | .sclk => p.sclk
  | .sdata => p.sdata
  | .aux => p.aux

/-- The electrical level `POL_<line>(level)` of a logical level: `one` is the high level (R23). -/
def pinLevel (activeHigh : Bool) (v : Level) : Level :=
  match activeHigh, v with
  | true, v => v
  | false, .zero => .one
  | false, .one => .zero
  | false, .undef => .undef

end Sys2Proof.Machine
end

