-- ==== Sys2Proof/Machine/Chain.lean ====
section
/-! DEFINITION. The attached chip chain: its registers (10_state.md section 6) and its reaction to each event
(60_exceptions.md section 4). The chain is the block's environment; the state holds it so that what the block's line
activity displays can be stated (R4). -/

namespace Sys2Proof.Machine

/-- The content of an ACT or DISP register: a word12 or the spec's ⊥ (R37, R38). -/
inductive Grey where
  | value (v : Word12)
  | undef
  deriving DecidableEq, Repr

/-- The chain's registers (R35 to R39). -/
structure Chain where
  /-- SR: the shadow shift register, cell q = 0 at the host end (R35). -/
  sr : List Level
  /-- ACT: the active output registers, chain word 0 first (R37). -/
  act : List Grey
  /-- DISP: the armed registers, the values the outputs show (R38). -/
  disp : List Grey
  /-- SHIFTING: 1 from an SCLK assert edge until the next LATCH assert edge (R39). -/
  shifting : Bool
  deriving DecidableEq, Repr

/-- The chain at power-up: every cell and register ⊥, SHIFTING 0 (R43); sizes by R35, R37 and R38. -/
def Chain.powerUp (c : Config) : Chain where
  sr := List.replicate c.cells .undef
  act := List.replicate c.outputs .undef
  disp := List.replicate c.outputs .undef
  shifting := false

/-- `Σ cells[t] × 2^t`, or nothing if a cell is ⊥ (R36). -/
def cellsValue : List Level → Option Nat
  | [] => some 0
  | c :: cs =>
    match c, cellsValue cs with
    | .zero, some v => some (2 * v)
    | .one, some v => some (2 * v + 1)
    | _, _ => none

/-- Chain word w: the cells SR[12w .. 12w+11], the cell nearer the far end the more significant; ⊥ if any of them is ⊥
(R36). -/
def chainWord (sr : List Level) (w : Nat) : Grey :=
  match cellsValue ((sr.drop (12 * w)).take 12) with
  | some v => .value (BitVec.ofNat 12 v)
  | none => .undef

/-- Every SR, ACT and DISP cell becomes ⊥ (R203, R210). -/
def Chain.poison (c : Chain) : Chain :=
  { c with
    sr := c.sr.map fun _ => .undef
    act := c.act.map fun _ => .undef
    disp := c.disp.map fun _ => .undef }

/-- The shift by one cell (R202): SR[0] takes the level of SDATA, and the last cell leaves the chain. -/
def shiftIn (sdata : Level) (sr : List Level) : List Level := (sdata :: sr).take sr.length

/-- SCLK assert edge: a shift if LATCH = 0 and PROG = 0 (R202), else the chain's content is lost (R203, R210). A LATCH or
PROG at ⊥ counts as possibly 1 (notes/assumptions/9.md); SHIFTING becomes 1 on every SCLK assert edge (R39,
notes/assumptions/10.md). -/
def Chain.onSclk (c : Chain) (l : Lines) : Chain :=
  if l.latch = .zero ∧ l.prog = .zero then { c with sr := shiftIn l.sdata c.sr, shifting := true }
  else { c.poison with shifting := true }

/-- LATCH assert edge: every ACT[w] takes chain word w (R204), unless PROG is or may be 1 (R210,
notes/assumptions/9.md); SHIFTING becomes 0 (R39). -/
def Chain.onLatch (c : Chain) (l : Lines) : Chain :=
  if l.prog = .zero then
    { c with act := (List.range c.act.length).map (chainWord c.sr), shifting := false }
  else { c.poison with shifting := false }

/-- GSCLK assert edge: the new values are armed (R206). -/
def Chain.onGsclk (c : Chain) : Chain := { c with disp := c.act }

/-- The chain's reaction to an event performed on lines `l` (R200): only an assert edge on SCLK, LATCH or GSCLK changes a
chain register (R201, R205, R207). -/
def Chain.react (c : Chain) (l : Lines) (e : Event) : Chain :=
  match l.edge e with
  | .assert =>
    match e.line with
    | .sclk => c.onSclk l
    | .latch => c.onLatch l
    | .gsclk => c.onGsclk
    | .blank => c
    | .prog => c
    | .sdata => c
    | .aux => c
  | .deassert => c
  | .none => c

end Sys2Proof.Machine
end

