-- ==== Sys2Proof/Machine/State.lean ====
section
/-! DEFINITION. The machine's state (10_state.md R20, R35 to R43), the reasons a step can stop, and the state after reset. -/

namespace Sys2Proof.Machine

/-- `STATUS.CODE`: the result of the last command that completed (R29, R181). The codes 7..15 are never reported. -/
inductive Code where
  | ok
  | specLength
  | valueRange
  | frameLength
  | dpRange
  | badOp
  | reserved
  deriving DecidableEq, Repr

/-- The state: the block's elements of R20, the registers of the attached chain (R35 to R39), and the model's own record of the
block's host side (the last three fields). STATUS is stored as its field CODE; BUSY is computed from PEND (R30) and bits
[31:5] are hardwired 0 (R29): see `State.status`. -/
structure State where
  /-- LINES (R21). -/
  lines : Lines
  /-- PEND: the events of the current command still to perform (R26). -/
  pend : List Event
  /-- STATUS.CODE (R29). -/
  code : Code
  /-- CONFIG (R32). -/
  config : Config
  /-- SR, ACT, DISP and SHIFTING of the attached chain (R35 to R39). -/
  chain : Chain
  /-- MODEL'S OWN: the commands the host has presented and the block has not accepted, oldest first (R190). -/
  inbox : List Command
  /-- MODEL'S OWN: the result frames returned to the host so far, oldest first (R86). -/
  returned : List Frame
  /-- MODEL'S OWN: the level of the reset input (R231) in each coming step, next step first; de-asserted beyond the list. -/
  resetIn : List Bool
  deriving DecidableEq, Repr

/-- The block raises no processor-style exception and takes no trap (R180): no step faults, so there is no reason. -/
inductive Fault where
  deriving DecidableEq, Repr

/-- Why a step can be refused. -/
inductive Refusal where
  /-- Raised by an arm of `exec` whose instruction has no meaning; no arm does. Safe. -/
  | notModelled (mnemonic : String)
  /-- Raised by the model's decoder at a pair (word, list) whose list length differs from `count`: not a command of this
  interface (R85). Safe. -/
  | payloadLength
  /-- Raised by the model's decoder at a payload element that is not of the command's type (R84, R85). Safe. -/
  | payloadType
  deriving DecidableEq, Repr

/-- The state when power-up reset ends, for an instantiation `c` (R42, R43): no line driven yet, INIT pending. -/
def State.resetWith (c : Config) : State where
  lines := Lines.undriven
  pend := initEvents c
  code := .ok
  config := c
  chain := Chain.powerUp c
  inbox := []
  returned := []
  resetIn := []

/-- The machine right after reset, with the default configuration. -/
def State.reset : State := State.resetWith Config.default

end Sys2Proof.Machine
end

