-- ==== Sys2Proof/Machine/Operands.lean ====
section
/-! DEFINITION. The operand checks and the operand arithmetic of the commands (30_encoding.md section 3). -/

namespace Sys2Proof.Machine

/-- The reserved field `pos` is not 0 (R89). -/
def reservedPos (pos : BitVec 12) : Bool := pos != 0

/-- The element count is a multiple of 16 (R111). -/
def wholeChips (count : Nat) : Bool := count % 16 == 0

/-- Every value is a word12 (R117). -/
def valuesInRange (values : List Value16) : Bool := values.all fun v => v.toNat ≤ 4095

/-- The word12 that an in-range 16-bit element holds (R84). -/
def word12Of (v : Value16) : Word12 := v.setWidth 12

/-- `o = pos × DP_STRIDE_BYTES`: the byte offset of a symbol's channel group (R87, R122). -/
def dpOffset (c : Config) (pos : BitVec 12) : Nat := pos.toNat * c.dpStride

/-- Both bytes of the channel group lie in a frame of `count` bytes (R123). -/
def dpInRange (c : Config) (pos : BitVec 12) (count : Nat) : Bool := dpOffset c pos + 2 ≤ count

/-- The frame has exactly FRAME_BYTES = 24 × N bytes (R145). -/
def fitsChain (c : Config) (count : Nat) : Bool := count == c.frameBytes

end Sys2Proof.Machine
end

