-- ==== Sys2Proof/Machine/Flags.lean ====
section
/-! DEFINITION. The status register (10_state.md section 4). The block has no condition codes (R33). -/

namespace Sys2Proof.Machine

/-- The numeric value of a result code (R181). -/
def Code.bits : Code → BitVec 4
  | .ok => 0
  | .specLength => 1
  | .valueRange => 2
  | .frameLength => 3
  | .dpRange => 4
  | .badOp => 5
  | .reserved => 6

/-- `STATUS.BUSY`: 1 exactly when `PEND ≠ []` (R30). -/
def State.busy (s : State) : Bool := !s.pend.isEmpty

/-- The 32-bit value the host reads: bits [31:5] hardwired 0, BUSY in bit 4, CODE in bits [3:0] (R29). -/
def State.status (s : State) : Word32 := (0 : BitVec 27) ++ BitVec.ofBool s.busy ++ s.code.bits

end Sys2Proof.Machine
end

