-- ==== Sys2Proof/Machine/Ops.lean ====
section
/-! DEFINITION. The named operations on the state that the meanings and the step are made of. -/

namespace Sys2Proof.Machine

/-- `raise Reject(code)`, the block's only exception (R180, R182): CODE takes the code and nothing else changes. There is no
return from it: the block is idle and accepts the next command (R184). -/
def State.reject (s : State) (code : Code) : State := { s with code := code }

/-- An encoder command completes with CODE = 0 and returns a frame to the host (R86, R110). -/
def State.returnFrame (s : State) (f : Frame) : State := { s with code := .ok, returned := s.returned ++ [f] }

/-- LINK accepts a command: PEND takes the command's whole event list (R26). -/
def State.begin (s : State) (events : List Event) : State := { s with pend := events }

/-- Perform one event: the line takes its level and the chain reacts (R140, R200). -/
def State.perform (s : State) (e : Event) : State :=
  { s with lines := s.lines.drive e, chain := s.chain.react s.lines e }

/-- CODE after an event, when the events `rest` are still to perform: the command completes with the last one (R141). -/
def codeAfter (rest : List Event) (code : Code) : Code := if rest.isEmpty then .ok else code

/-- The controller step: perform the head event `e`, with `rest` left (R141). -/
def State.controllerStep (s : State) (e : Event) (rest : List Event) : State :=
  { s.perform e with pend := rest, code := codeAfter rest s.code }

/-- Reset (R230, R231, R233): whatever the block is doing is abandoned, no line is driven (R42), CODE is 0 and INIT's events
are pending. The configuration, the chain's registers (R43) and the commands the host still holds are unchanged. -/
def State.enterReset (s : State) : State :=
  { s with lines := Lines.undriven, pend := initEvents s.config, code := .ok }

/-- The reset input moves on to the next step's level. -/
def State.tick (s : State) : State := { s with resetIn := s.resetIn.tail }

/-- The level of the reset input in this step. -/
def State.resetNow (s : State) : Bool := s.resetIn.headD false

/-- The electrical level of a line (R23). -/
def State.pin (s : State) (line : Line) : Level := pinLevel (polarityOf s.config.polarity line) (s.lines.get line)

end Sys2Proof.Machine
end

