-- ==== Sys2Proof/Machine/ChipLink.lean ====
section
/-! DEFINITION. The Chip Link commands (41_chip_link.md): each computes its whole event list when it is accepted (R26); the
controller then performs one event per step (R141). -/

namespace Sys2Proof.Machine

/-- `SHIFT(d)` (R147): data, clock up, clock down. -/
def shiftBit (d : Bool) : List Event := [⟨.sdata, d⟩, ⟨.sclk, true⟩, ⟨.sclk, false⟩]

/-- `SH(F)` (R147): every bit of the frame's stream in order. -/
def shiftFrame (f : Frame) : List Event := (stream f).flatMap shiftBit

/-- Steps 3 to 5 of the protocol (R147): latch pulse, outputs re-enabled, greyscale-clock pulse. -/
def latchAndShow : List Event :=
  [⟨.latch, true⟩, ⟨.latch, false⟩, ⟨.blank, false⟩, ⟨.gsclk, true⟩, ⟨.gsclk, false⟩]

/-- `TX_EVENTS(F)`: BLANK is asserted before the shift (CONTRACT, R147) or after it (REFERENCE, R148). -/
def txEvents (order : BlankOrder) (f : Frame) : List Event :=
  match order with
  | .contract => ⟨.blank, true⟩ :: (shiftFrame f ++ latchAndShow)
  | .reference => shiftFrame f ++ ⟨.blank, true⟩ :: latchAndShow

/-- INIT (R142). -/
def execInit (pos : BitVec 12) (count : BitVec 16) (s : State) : Host.Outcome State Fault Refusal :=
  if reservedPos pos || count != 0 then .next (s.reject .reserved) else .next (s.begin (initEvents s.config))

/-- TRANSMIT (R146). Every operand check comes before the first event (R144). -/
def execTransmit (pos : BitVec 12) (frame : Frame) (s : State) : Host.Outcome State Fault Refusal :=
  if reservedPos pos then .next (s.reject .reserved)
  else if fitsChain s.config frame.length then .next (s.begin (txEvents s.config.blankOrder frame))
  else .next (s.reject .frameLength)

end Sys2Proof.Machine
end

