-- ==== Sys2Proof/Machine/Encoder.lean ====
section
/-! DEFINITION. The Greyscale Encoder commands (40_encoder.md): each completes in the step that accepts it (R110). -/

namespace Sys2Proof.Machine

/-- ENCODE_ONOFF (R112). -/
def execEncodeOnoff (pos : BitVec 12) (flags : List Bool) (s : State) : Host.Outcome State Fault Refusal :=
  if reservedPos pos then .next (s.reject .reserved)
  else if wholeChips flags.length then .next (s.returnFrame (onoffFrame flags))
  else .next (s.reject .specLength)

/-- ENCODE_GS (R116). -/
def execEncodeGs (pos : BitVec 12) (values : List Value16) (s : State) : Host.Outcome State Fault Refusal :=
  if reservedPos pos then .next (s.reject .reserved)
  else if !wholeChips values.length then .next (s.reject .specLength)
  else if valuesInRange values then .next (s.returnFrame (greyFrame (values.map word12Of)))
  else .next (s.reject .valueRange)

/-- DP_OVERLAY (R122). -/
def execDpOverlay (pos : BitVec 12) (frame : Frame) (s : State) : Host.Outcome State Fault Refusal :=
  if dpInRange s.config pos frame.length then .next (s.returnFrame (overlayFrame frame (dpOffset s.config pos)))
  else .next (s.reject .dpRange)

end Sys2Proof.Machine
end

