-- ==== Sys2Proof/Machine/Dispatch.lean ====
section
/-! DEFINITION. What an accepted command does: one arm per command (R80). The step calls it only when PEND = [] (R190). -/

namespace Sys2Proof.Machine

def exec (i : Instr) (s : State) : Host.Outcome State Fault Refusal :=
  match i with
  | .init pos count => Sys2Proof.Machine.execInit pos count s
  | .encodeOnoff pos flags => Sys2Proof.Machine.execEncodeOnoff pos flags s
  | .encodeGs pos values => Sys2Proof.Machine.execEncodeGs pos values s
  | .dpOverlay pos frame => Sys2Proof.Machine.execDpOverlay pos frame s
  | .transmit pos frame => Sys2Proof.Machine.execTransmit pos frame s

end Sys2Proof.Machine
end

