-- ==== Sys2Proof/Machine/Accept.lean ====
section
/-! DEFINITION. One step of the block when its reset input is de-asserted: the controller performs an event, or a command is
accepted, or the block waits (R141, R190). -/

namespace Sys2Proof.Machine

/-- Accept one command (R190): run the command it decodes to, or reject a reserved `op` (R88); a pair that is no command of
the interface is refused by the model's decoder (R85). -/
def accept (c : Command) (s : State) : Host.Outcome State Fault Refusal :=
  match decode c with
  | .command i => exec i s
  | .badOp => .next (s.reject .badOp)
  | .payloadLength => .refused .payloadLength
  | .payloadType => .refused .payloadType

/-- While PEND ≠ [] the controller performs its head (R141) and every presented command is held (R190). When PEND = [] the
oldest presented command is accepted; with none, the block waits. -/
def runBlock (s : State) : Host.Outcome State Fault Refusal :=
  match s.pend with
  | e :: rest => .next (s.controllerStep e rest)
  | [] =>
    match s.inbox with
    | [] => .next s
    | c :: later => accept c { s with inbox := later }

end Sys2Proof.Machine
end

