-- ==== Sys2Proof/Machine/Step.lean ====
section
/-! DEFINITION. One step of the machine, and how the host places one command to run next. -/

namespace Sys2Proof.Machine

/-- One step: reset if the reset input is asserted in it (R231), else one step of the block. -/
def step (s : State) : Host.Outcome State Fault Refusal :=
  if s.resetNow then .next s.tick.enterReset else runBlock s.tick

/-- `s` with the command of an opcode-table word presented so that the next step accepts it: the block is idle, the command is
the oldest presented, and the reset input is de-asserted in that step. -/
def State.withFetchWord (s : State) (_nbits w : Nat) : State :=
  { s with pend := [], inbox := tableCommand w :: s.inbox, resetIn := false :: s.resetIn }

end Sys2Proof.Machine
end

