-- ==== Sys2Proof/Machine/Show.lean ====
section
/-! DEFINITION. The host's one pseudo-instruction, SHOW (R92). It is control flow of the host, not a command of the block. -/

namespace Sys2Proof.Machine

/-- `SHOW "<flags>"`: the commands the host issues (R92). It issues the TRANSMIT of the returned frame only if the ENCODE_ONOFF
completed with CODE = 0, which is when the number of flags is a multiple of 16 (R111). The decision by the number of flags is
the model's reading (notes/assumptions/22.md). For 43696 to 65520 flags the frame has more than MAX_COUNT bytes, so it has no
TRANSMIT word (R83), and the spec does not say what the host does then. DESIGN CHOICE (notes/assumptions/23.md): the pair is
issued with `count` truncated to 16 bits, and the step refuses it, `payloadLength`; so it is with the ENCODE_ONOFF of more than
65535 flags. -/
def showCommands (flags : List Bool) : List Command :=
  encode (.encodeOnoff 0 flags)
    :: if wholeChips flags.length then [encode (.transmit 0 (onoffFrame flags))] else []

end Sys2Proof.Machine
end

