-- ==== Sys2Proof/Machine/Light.lean ====
section
/-! DEFINITION. The light output of the attached chain (60_exceptions.md R208, R209): what can be observed of the chain's
registers (R41). -/

namespace Sys2Proof.Machine

/-- What an output shows (R208). `on` is ON at a level the spec leaves unspecified; `any` is the spec's ANY: every light output
is possible, and no claim may rest on one of them. -/
inductive Light where
  | off
  | full
  | on
  | any
  deriving DecidableEq, Repr

/-- What an armed register shows when BLANK is 0 and nothing is being shifted (R208). -/
def Grey.light : Grey → Light
  | .undef => .any
  | .value v => if v = 0 then .off else if v = 4095 then .full else .on

/-- `Light(i)` (R208), the cases in the spec's order. Output i is driven by chain word i; there is no output 16N or above. -/
def State.light (s : State) (i : Nat) : Light :=
  match s.lines.blank with
  | .one => .off
  | .undef => .any
  | .zero => if s.chain.shifting then .any else (s.chain.disp.getD i .undef).light

end Sys2Proof.Machine
end

