-- ==== Sys2Proof/Safety.lean ====
section
/-! DEFINITION. The terms in which claims are stated: runs of the machine, and what a safe state is (what the block never does
to the chain: 41_chip_link.md R149, 70_reset_and_hazards.md R241, R242). -/

namespace Sys2Proof.Machine

/-- `k` steps from a state. -/
abbrev State.run (s : State) (k : Nat) : Host.Outcome State Fault Refusal := Host.Core.run Sys2Proof.core k s

/-- The reset input is not asserted in any of the next `k` steps. -/
abbrev State.resetQuiet (s : State) (k : Nat) : Prop := true ∉ s.resetIn.take k

/-- The chain's registers have the sizes of R35, R37 and R38. -/
abbrev State.sized (s : State) : Prop :=
  s.chain.sr.length = s.config.cells ∧ s.chain.act.length = s.config.outputs ∧ s.chain.disp.length = s.config.outputs

/-- Between commands LATCH, GSCLK, PROG and SCLK are de-asserted (R42, R151; 90_conflicts.md C2) and the other two lines that
always exist have been driven. -/
def Lines.idle (l : Lines) : Bool :=
  l.latch == .zero && l.gsclk == .zero && l.prog == .zero && l.sclk == .zero && l.blank != .undef && l.sdata != .undef

/-- The event keeps the rules of R149 on lines `l`: SCLK rises only with LATCH and PROG at 0 and SDATA driven; SDATA moves only
while SCLK is 0; LATCH rises only with SCLK and PROG at 0; GSCLK rises only with BLANK at 0; PROG is never asserted. -/
def Event.clean (l : Lines) (e : Event) : Bool :=
  match e.line with
  | .sclk => !e.level || (l.latch == .zero && l.prog == .zero && l.sdata != .undef)
  | .sdata => l.sclk == .zero
  | .latch => !e.level || (l.sclk == .zero && l.prog == .zero)
  | .gsclk => !e.level || l.blank == .zero
  | .prog => !e.level
  | .blank => true
  | .aux => true

/-- Every event of the list keeps the rules of R149 when the list is performed from lines `l`, and the lines are idle after
it. -/
def cleanFrom (l : Lines) : List Event → Bool
  | [] => l.idle
  | e :: rest => e.clean l && cleanFrom (l.drive e) rest

/-- Every latch pulse of the list is a clean pulse after the shift (R149, R241): a Set(LATCH, 1) is followed directly by
Set(LATCH, 0), and no event after it drives SCLK. -/
def latchAfterShift : List Event → Bool
  | [] => true
  | e :: rest =>
    (e != ⟨.latch, true⟩ || (rest.head? == some ⟨.latch, false⟩ && rest.all fun f => f.line != .sclk)) && latchAfterShift rest

/-- Where the line AUX exists, it is at 0 when the list has been performed from lines `l` (R24, R42, R151). -/
def auxIdleAfter (c : Config) (l : Lines) (events : List Event) : Bool :=
  c.nAux != 1 || (events.foldl Lines.drive l).aux == .zero

/-- The invariant of the machine: a legal configuration (R8), a chain of the right size (R200), no more events pending than the
longest command has (R28), and pending events that keep the rules of R149 and leave AUX at 0. -/
abbrev State.Inv (s : State) : Prop :=
  s.config.legal ∧ s.sized ∧ s.pend.length ≤ s.config.txLength ∧ cleanFrom s.lines s.pend = true
    ∧ latchAfterShift s.pend = true ∧ auxIdleAfter s.config s.lines s.pend = true

/-- SHIFTING after an event (R39). -/
def shiftingAfter (l : Lines) (e : Event) (shifting : Bool) : Bool :=
  match e.line, l.edge e with
  | .sclk, .assert => true
  | .latch, .assert => false
  | _, _ => shifting

/-- The glitch window is open: SHIFTING = 1 and BLANK = 0 (R209). -/
def glitchOpen (l : Lines) (shifting : Bool) : Bool := shifting && l.blank == .zero

/-- The glitch window is closed now and after every event of the list. -/
def glitchFreeFrom (l : Lines) (shifting : Bool) : List Event → Bool
  | [] => !glitchOpen l shifting
  | e :: rest => !glitchOpen l shifting && glitchFreeFrom (l.drive e) (shiftingAfter l e shifting) rest

/-- No glitch window is open, nor opens while the pending events are performed. -/
abbrev State.glitchFree (s : State) : Prop := glitchFreeFrom s.lines s.chain.shifting s.pend = true

/-- Every cell and register of the chain holds a value. -/
abbrev Chain.defined (c : Chain) : Prop := Level.undef ∉ c.sr ∧ Grey.undef ∉ c.act ∧ Grey.undef ∉ c.disp

end Sys2Proof.Machine
end

