-- ==== Sys2Proof/Certificates/Slice0/Obligations.lean ====
section
/-! DEFINITION. The statements for the provers. Each docstring names the rule of the spec that it formalises; where the rule is
a decision of the spec's own (92_eei_decisions.md) or rests on a choice of the model (notes/assumptions), it says so. -/

open Sys2Proof Sys2Proof.Machine

/-! ### Decoding and encoding -/

/-- R81 to R84 (decision D14): the words of R93's table with 0x10000000, 0x20000010 and 0x00000000, and one word each of the other
three commands with a short list, written out from the field table of R81. R93 gives 0x10010000 as rejected with E_RESERVED; that
the decoder gives it as the command `init 1 0`, whose meaning raises that rejection (see InitQueuesItsEvents), is the model's
choice (notes/assumptions/13.md, DESIGN CHOICE). -/
def Obligations.WorkedWordsDecodeAsTheSpecSays : Prop :=
  decode ⟨0x10000000, []⟩ = .command (.init 0 0)
    ∧ decode ⟨0x20000010, List.replicate 16 (.flag true)⟩ = .command (.encodeOnoff 0 (List.replicate 16 true))
    ∧ decode ⟨0x30000002, [.value 0x123, .value 0xFFFF]⟩ = .command (.encodeGs 0 [0x123, 0xFFFF])
    ∧ decode ⟨0x40010003, [.byte 1, .byte 2, .byte 3]⟩ = .command (.dpOverlay 1 [1, 2, 3])
    ∧ decode ⟨0x50000002, [.byte 0xAB, .byte 0xCD]⟩ = .command (.transmit 0 [0xAB, 0xCD])
    ∧ decode ⟨0x00000000, []⟩ = .badOp
    ∧ decode ⟨0x10010000, []⟩ = .command (.init 1 0)

/-- R81, R84 (decision D14): decoding the encoding of any command whose payload fits `count` gives the command back, with every
field and every payload element. -/
def Obligations.DecodeOfEncodeIsTheCommand : Prop :=
  ∀ i : Instr, i.wellFormed = true → decode (encode i) = .command i

/-- R81, R84, R85 (decision D14): the other direction. A command that decodes is the encoding of what it decodes to; of INIT the
word, since its elements are ignored. -/
def Obligations.EncodeOfDecodeIsTheSameWord : Prop :=
  ∀ (c : Command) (i : Instr), decode c = .command i →
    i.wellFormed = true ∧ (encode i).word = c.word ∧ ((opField c.word).toNat ≠ 1 → encode i = c)

/-- R82, R84, R87, R88 (decision D14): what every word with a list of `count` elements decodes to, by its `op`, where the elements
are of the command's type. R90 says that a word with a non-zero reserved field is rejected (R89, decision D35); that it decodes to
the command, which carries the field and rejects itself, is the model's choice (notes/assumptions/13.md, DESIGN CHOICE). -/
def Obligations.EveryWordIsACommandOrABadOp : Prop :=
  ∀ (w : Word32) (es : List Elem), es.length = w.toNat % 65536 →
    (w.toNat / 268435456 = 1 → decode ⟨w, es⟩ =
        .command (.init (BitVec.ofNat 12 (w.toNat / 65536)) (BitVec.ofNat 16 w.toNat)))
      ∧ (w.toNat / 268435456 = 2 → ∀ xs : List Bool, es = xs.map .flag → decode ⟨w, es⟩ =
        .command (.encodeOnoff (BitVec.ofNat 12 (w.toNat / 65536)) xs))
      ∧ (w.toNat / 268435456 = 3 → ∀ xs : List Value16, es = xs.map .value → decode ⟨w, es⟩ =
        .command (.encodeGs (BitVec.ofNat 12 (w.toNat / 65536)) xs))
      ∧ (w.toNat / 268435456 = 4 → ∀ xs : Frame, es = xs.map .byte → decode ⟨w, es⟩ =
        .command (.dpOverlay (BitVec.ofNat 12 (w.toNat / 65536)) xs))
      ∧ (w.toNat / 268435456 = 5 → ∀ xs : Frame, es = xs.map .byte → decode ⟨w, es⟩ =
        .command (.transmit (BitVec.ofNat 12 (w.toNat / 65536)) xs))
      ∧ (w.toNat / 268435456 = 0 ∨ 6 ≤ w.toNat / 268435456 → decode ⟨w, es⟩ = .badOp)

/-- R85 (decision D14; notes/assumptions/12.md): a pair that is no command of the interface is refused by the model's decoder when
its turn comes, by a name that says why. -/
def Obligations.PairsOutsideTheInterfaceAreRefused : Prop :=
  ∀ (s : State) (c : Command) (later : List Command), s.pend = [] → s.inbox = c :: later → s.resetNow = false →
    (c.payload.length ≠ c.word.toNat % 65536 → step s = .refused .payloadLength)
      ∧ (c.payload.length = c.word.toNat % 65536 →
          (c.word.toNat / 268435456 = 2 ∧ (∃ e ∈ c.payload, e.flag? = none))
            ∨ (c.word.toNat / 268435456 = 3 ∧ (∃ e ∈ c.payload, e.value? = none))
            ∨ ((c.word.toNat / 268435456 = 4 ∨ c.word.toNat / 268435456 = 5) ∧ (∃ e ∈ c.payload, e.byte? = none)) →
          step s = .refused .payloadType)

/-! ### The step -/

/-- R190, R141: when the block is idle and the oldest presented command decodes to i, the step is exec of i, on the state from
which that command has been taken; the reset input moves on by one step (notes/assumptions/3.md and 5.md). -/
def Obligations.StepRunsTheDecodedCommand : Prop :=
  ∀ (s : State) (c : Command) (later : List Command) (i : Instr),
    s.pend = [] → s.inbox = c :: later → s.resetNow = false → decode c = .command i →
      step s = exec i { s with inbox := later, resetIn := s.resetIn.tail }

/-- R88, R182, R183 (decisions D14 to D16): a word with a reserved `op` is rejected with E_BAD_OP, whatever its other fields are,
and nothing else changes. -/
def Obligations.ReservedOpIsRejected : Prop :=
  ∀ (s : State) (c : Command) (later : List Command),
    s.pend = [] → s.inbox = c :: later → s.resetNow = false →
    c.payload.length = c.word.toNat % 65536 →
    (c.word.toNat / 268435456 = 0 ∨ 6 ≤ c.word.toNat / 268435456) →
      step s = .next { s with code := .badOp, inbox := later, resetIn := s.resetIn.tail } ∧ Code.bits .badOp = 5

/-- R141: with PEND ≠ [] one controller step performs the head event and completes the command with CODE 0 after the last one;
with PEND = [] and no command presented, the controller takes no step. -/
def Obligations.ControllerStepPerformsTheHeadEvent : Prop :=
  ∀ s : State, s.resetNow = false →
    (∀ (e : Event) (rest : List Event), s.pend = e :: rest →
        step s = .next { s with
          lines := s.lines.drive e
          chain := s.chain.react s.lines e
          pend := rest
          code := if rest = [] then .ok else s.code
          resetIn := s.resetIn.tail })
      ∧ (s.pend = [] → s.inbox = [] → step s = .next { s with resetIn := s.resetIn.tail })

/-- R63, R86, R190 (decision D20; notes/assumptions/3.md, 4.md and 7.md): a step takes a command from the host only when the
block is idle, only the oldest, and never loses one; a frame is returned only then, and only with CODE 0. -/
def Obligations.CommandsAreTakenInOrderAndOnlyWhenIdle : Prop :=
  ∀ s t : State, step s = .next t →
    (t.inbox = s.inbox ∧ t.returned = s.returned)
      ∨ (s.pend = [] ∧ s.resetNow = false ∧ ∃ c, s.inbox = c :: t.inbox ∧
          (t.returned = s.returned ∨ ∃ f, t.returned = s.returned ++ [f] ∧ t.code = .ok ∧ t.pend = []))

/-- R232: no step changes the configuration, reset included. -/
def Obligations.ConfigurationNeverChanges : Prop :=
  ∀ s t : State, step s = .next t → t.config = s.config

/-- R31 (decision D34): apart from reset, CODE changes only in a step that completes or rejects a command: the step of the last
event, after which it is 0, or a step that accepts a command which is over at once. -/
def Obligations.CodeChangesOnlyWhenACommandEnds : Prop :=
  ∀ s t : State, s.resetNow = false → step s = .next t → t.code ≠ s.code →
    t.pend = [] ∧ ((∃ e, s.pend = [e] ∧ t.code = .ok) ∨ (s.pend = [] ∧ ∃ c, s.inbox = c :: t.inbox))

/-- R182: a command that ends in the step that accepts it with a code other than OK changes nothing but CODE (and has been taken
from the host). -/
def Obligations.RejectionChangesOnlyTheCode : Prop :=
  ∀ (s t : State) (c : Command) (later : List Command),
    s.pend = [] → s.inbox = c :: later → s.resetNow = false → step s = .next t → t.pend = [] → t.code ≠ .ok →
      t = { s with code := t.code, inbox := later, resetIn := s.resetIn.tail }

/-! ### The status register -/

/-- R30: BUSY, bit 4 of STATUS, is 1 exactly when PEND is not empty. -/
def Obligations.BusyBitIsPendNotEmpty : Prop :=
  ∀ s : State, s.status.getLsbD 4 = true ↔ s.pend ≠ []

/-- R29, R181 (decisions D15 and D34): the value of STATUS: the code in bits [3:0], BUSY in bit 4, and 0 above. -/
def Obligations.StatusHoldsCodeAndBusy : Prop :=
  ∀ s : State,
    s.status.toNat = (if s.pend = [] then 0 else 16) +
      (match s.code with
        | .ok => 0
        | .specLength => 1
        | .valueRange => 2
        | .frameLength => 3
        | .dpRange => 4
        | .badOp => 5
        | .reserved => 6)

/-! ### Reset and INIT -/

/-- R230, R231, R233 (decision D21; notes/assumptions/5.md and 6.md): asserting the reset input at any step abandons the events
left, leaves no line driven, sets CODE to 0 and makes INIT's events pending; the configuration (R232) and the chain's registers
(R43) are unchanged. That the commands still held stay presented is the model's reading (notes/assumptions/7.md, DEDUCED), and
the list of returned frames is the model's own (notes/assumptions/4.md, DESIGN CHOICE). -/
def Obligations.ResetInputRestartsTheBlock : Prop :=
  ∀ s : State, s.resetNow = true →
    step s = .next { s with
      lines := ⟨.undef, .undef, .undef, .undef, .undef, .undef, .undef⟩
      pend := initEvents s.config
      code := .ok
      resetIn := s.resetIn.tail }

/-- R42, R43 (decisions D19 and D31): the state when power-up reset ends, for every configuration: no line driven, INIT pending,
CODE 0, BUSY 1, and every chain cell and register ⊥. -/
def Obligations.PowerUpStateIsAsTheSpecSays : Prop :=
  (∀ c : Config,
    (∀ l : Line, (State.resetWith c).lines.get l = .undef)
      ∧ (State.resetWith c).pend = initEvents c
      ∧ (initEvents c).length = (if c.nAux = 1 then 7 else 6)
      ∧ (State.resetWith c).status = 0x10
      ∧ (State.resetWith c).config = c
      ∧ (State.resetWith c).sized
      ∧ (∀ q < c.cells, (State.resetWith c).chain.sr[q]? = some .undef)
      ∧ (∀ w < c.outputs, (State.resetWith c).chain.act[w]? = some .undef ∧ (State.resetWith c).chain.disp[w]? = some .undef)
      ∧ (State.resetWith c).chain.shifting = false)
    ∧ State.reset = State.resetWith Config.default

/-- R142, R143, R42 (decision D19): performing INIT's events, from whatever lines and chain, leaves BLANK at 1 and every other line
at 0, changes no chain register, completes with CODE 0, and turns every output off. -/
def Obligations.InitDrivesTheIdleLevels : Prop :=
  ∀ s : State, s.pend = initEvents s.config → s.resetQuiet (initEvents s.config).length →
    ∃ t, s.run (initEvents s.config).length = .next t
      ∧ t = { s with
          lines := ⟨.one, .zero, .zero, .zero, .zero, .zero, if s.config.nAux = 1 then .zero else s.lines.aux⟩
          pend := []
          code := .ok
          resetIn := s.resetIn.drop (initEvents s.config).length }
      ∧ ∀ i, t.light i = .off

/-- R142 (decision D19 for INIT as a host command, D35 for the reserved fields): INIT is accepted with its whole event list
pending, and nothing else changes; with a non-zero reserved field it is rejected with E_RESERVED. -/
def Obligations.InitQueuesItsEvents : Prop :=
  (∀ s : State, exec (.init 0 0) s = .next { s with
      pend := [⟨.blank, true⟩, ⟨.latch, false⟩, ⟨.gsclk, false⟩, ⟨.prog, false⟩, ⟨.sclk, false⟩, ⟨.sdata, false⟩]
        ++ (if s.config.nAux = 1 then [⟨.aux, false⟩] else []) })
    ∧ ∀ (s : State) (pos : BitVec 12) (count : BitVec 16), pos ≠ 0 ∨ count ≠ 0 →
        exec (.init pos count) s = .next { s with code := .reserved }

/-! ### The encoder commands -/

/-- R112: ENCODE_ONOFF, by the spec's pseudocode with its own indexing: bit group k is 12 copies of S[L−1−k], packed; a non-zero
`pos` and then a length that is not a multiple of 16 are rejected. Nothing but CODE changes beside the frame returned. -/
def Obligations.EncodeOnoffFollowsItsPseudocode : Prop :=
  ∀ (pos : BitVec 12) (S : List Bool) (s : State),
    (pos ≠ 0 → exec (.encodeOnoff pos S) s = .next { s with code := .reserved })
      ∧ (pos = 0 → S.length % 16 ≠ 0 → exec (.encodeOnoff pos S) s = .next { s with code := .specLength })
      ∧ (pos = 0 → S.length % 16 = 0 → ∃ F : Frame,
          F = pack8 ((List.range S.length).flatMap fun k => List.replicate 12 (S.getD (S.length - 1 - k) false))
            ∧ 2 * F.length = 3 * S.length
            ∧ exec (.encodeOnoff pos S) s = .next { s with code := .ok, returned := s.returned ++ [F] })

/-- R116, R117 (decisions D6 and D17): ENCODE_GS, by the spec's pseudocode with its own indexing: bit group k is V[L−1−k], most
significant bit first, packed; the rejections in their order. -/
def Obligations.EncodeGsFollowsItsPseudocode : Prop :=
  ∀ (pos : BitVec 12) (V : List Value16) (s : State),
    (pos ≠ 0 → exec (.encodeGs pos V) s = .next { s with code := .reserved })
      ∧ (pos = 0 → V.length % 16 ≠ 0 → exec (.encodeGs pos V) s = .next { s with code := .specLength })
      ∧ (pos = 0 → V.length % 16 = 0 → (∃ v ∈ V, 4095 < v.toNat) →
          exec (.encodeGs pos V) s = .next { s with code := .valueRange })
      ∧ (pos = 0 → V.length % 16 = 0 → (∀ v ∈ V, v.toNat ≤ 4095) → ∃ F : Frame,
          F = pack8 ((List.range V.length).flatMap fun k =>
                (List.range 12).map fun u => (V.getD (V.length - 1 - k) 0).getLsbD (11 - u))
            ∧ 2 * F.length = 3 * V.length
            ∧ exec (.encodeGs pos V) s = .next { s with code := .ok, returned := s.returned ++ [F] })

/-- R122, R123 (decisions D11 and D12): DP_OVERLAY. Byte o becomes 0xFF, byte o+1 keeps its low nibble and gets its high nibble
set, every other byte is copied; if the two bytes do not both lie in the frame the command is rejected. -/
def Obligations.DpOverlayChangesExactlyTwoBytes : Prop :=
  ∀ (pos : BitVec 12) (F : Frame) (s : State),
    (pos.toNat * s.config.dpStride + 2 > F.length → exec (.dpOverlay pos F) s = .next { s with code := .dpRange })
      ∧ (pos.toNat * s.config.dpStride + 2 ≤ F.length → ∃ G : Frame,
          exec (.dpOverlay pos F) s = .next { s with code := .ok, returned := s.returned ++ [G] }
            ∧ G.length = F.length
            ∧ G[pos.toNat * s.config.dpStride]? = some 0xFF
            ∧ (∀ b, F[pos.toNat * s.config.dpStride + 1]? = some b →
                G[pos.toNat * s.config.dpStride + 1]? = some (b ||| 0xF0#8))
            ∧ ∀ j, j ≠ pos.toNat * s.config.dpStride → j ≠ pos.toNat * s.config.dpStride + 1 → G[j]? = F[j]?)

/-- R122, corner case: applying the overlay twice gives the same frame as applying it once. -/
def Obligations.DpOverlayIsIdempotent : Prop :=
  ∀ (F : Frame) (o : Nat), o + 2 ≤ F.length → overlayFrame (overlayFrame F o) o = overlayFrame F o

/-- R124 (derived there; decision D11): adding 255 and 240 agrees with the overlay's OR, and makes no carry, exactly when the first
byte and the high nibble of the second are 0. -/
def Obligations.AdditionAgreesWithOrOnlyOnClearBytes : Prop :=
  ∀ (F : Frame) (o : Nat) (a b : Byte), F[o]? = some a → F[o + 1]? = some b →
    ((overlayFrame F o)[o]? = some (BitVec.ofNat 8 (a.toNat + 255)) ∧ a.toNat + 255 < 256
      ∧ (overlayFrame F o)[o + 1]? = some (BitVec.ofNat 8 (b.toNat + 240)) ∧ b.toNat + 240 < 256
      ↔ a = 0 ∧ b &&& 0xF0#8 = 0)

/-- R125 (derived there; decision D12): with a stride of 12 bytes the overlay of position `pos` sets stream word 8 × pos to 4095
and leaves every other stream word as it was. -/
def Obligations.OverlayLightsStreamWordEightPos : Prop :=
  ∀ (F : Frame) (pos : Nat), 12 * pos + 2 ≤ F.length →
    streamWord (overlayFrame F (12 * pos)) (8 * pos) = 4095
      ∧ ∀ k, k ≠ 8 * pos → streamWord (overlayFrame F (12 * pos)) k = streamWord F k

/-- R125, R112 (derived there; decision D12): overlaying an encoded specification at position `pos` is encoding the specification
with that symbol's output on: output L − 1 − 8 × pos. -/
def Obligations.OverlayIsEncodingWithTheOutputOn : Prop :=
  ∀ (S : List Bool) (pos : Nat), S.length % 16 = 0 → 8 * pos < S.length →
    overlayFrame (onoffFrame S) (12 * pos) = onoffFrame (S.set (S.length - 1 - 8 * pos) true)

/-! ### Laws of the frame -/

/-- R115: an Output Specification of length 16k is encoded in exactly 24k bytes. -/
def Obligations.FrameLengthLaw : Prop :=
  ∀ (S : List Bool) (k : Nat), S.length = 16 * k → (onoffFrame S).length = 24 * k

/-- R51: the bit stream of a frame, bit by bit, and that packing it gives the frame back; and packing a whole number of bytes
loses no bit. -/
def Obligations.StreamAndPackAreInverse : Prop :=
  (∀ F : Frame, (stream F).length = 8 * F.length ∧ pack8 (stream F) = F
      ∧ ∀ m < 8 * F.length, (stream F)[m]? = F[m / 8]?.map fun b => b.getLsbD (7 - m % 8))
    ∧ ∀ b : List Bool, b.length % 8 = 0 → stream (pack8 b) = b

/-- R52, R53, R54 (decision D6 for the order of the bits within a value): output index i of a frame for L outputs is stream word
L − 1 − i: as a word of the frame, for both encoders. -/
def Obligations.OutputIsItsStreamWord : Prop :=
  (∀ (V : List Word12) (i : Nat), V.length % 16 = 0 → i < V.length →
      V[i]? = some (streamWord (greyFrame V) (V.length - 1 - i)))
    ∧ ∀ (S : List Bool) (i : Nat) (f : Bool), S.length % 16 = 0 → S[i]? = some f →
        ((stream (onoffFrame S)).drop (12 * (S.length - 1 - i))).take 12 = List.replicate 12 f

/-- R55 (derived there): two stream words lie in three bytes. -/
def Obligations.StreamWordPairsLieInThreeBytes : Prop :=
  ∀ (F : Frame) (p : Nat) (b0 b1 b2 : Byte),
    F[3 * p]? = some b0 → F[3 * p + 1]? = some b1 → F[3 * p + 2]? = some b2 →
      b0 = (streamWord F (2 * p)).extractLsb' 4 8
        ∧ b1 = (streamWord F (2 * p)).extractLsb' 0 4 ++ (streamWord F (2 * p + 1)).extractLsb' 8 4
        ∧ b2 = (streamWord F (2 * p + 1)).extractLsb' 0 8

/-- R55, R245 (derived there): in every frame of 16N outputs, chip c's outputs are bytes 24(N−1−c) .. 24(N−1−c)+23, and those
bytes are the encoding of that chip's 16 values, or flags, alone. Every frame of 24N bytes is the frame of some values
(EveryFrameIsOneEncoding). -/
def Obligations.EachChipHasItsOwn24Bytes : Prop :=
  (∀ (V : List Word12) (N c : Nat), V.length = 16 * N → c < N →
      ((greyFrame V).drop (24 * (N - 1 - c))).take 24 = greyFrame ((V.drop (16 * c)).take 16))
    ∧ ∀ (S : List Bool) (N c : Nat), S.length = 16 * N → c < N →
        ((onoffFrame S).drop (24 * (N - 1 - c))).take 24 = onoffFrame ((S.drop (16 * c)).take 16)

/-- R150, R116: every frame of 24N bytes is the encoding of exactly one list of 16N greyscale values. -/
def Obligations.EveryFrameIsOneEncoding : Prop :=
  ∀ (N : Nat) (F : Frame), F.length = 24 * N → ∃! V : List Word12, V.length = 16 * N ∧ greyFrame V = F

/-- R114 (derived there): ENCODE_ONOFF is ENCODE_GS of 4095 and 0, as whole commands: the same frame, the same rejections, in every
state. -/
def Obligations.EncodeOnoffIsEncodeGsOfTheExtremes : Prop :=
  ∀ (pos : BitVec 12) (S : List Bool) (s : State),
    exec (.encodeOnoff pos S) s = exec (.encodeGs pos (S.map fun f => if f then 4095 else 0)) s

/-- R118 (derived there): the concatenation law, for both encoders. -/
def Obligations.EncodingReversesConcatenation : Prop :=
  (∀ S1 S2 : List Bool, S1.length % 16 = 0 → S2.length % 16 = 0 →
      onoffFrame (S1 ++ S2) = onoffFrame S2 ++ onoffFrame S1)
    ∧ ∀ V1 V2 : List Word12, V1.length % 16 = 0 → V2.length % 16 = 0 →
        greyFrame (V1 ++ V2) = greyFrame V2 ++ greyFrame V1

/-- R119 (derived there): the reversal law. Reversing the values reverses the stream words; reversing the flags reverses the bit
stream. -/
def Obligations.EncodingReversesReversal : Prop :=
  (∀ (V : List Word12) (k : Nat), V.length % 16 = 0 → k < V.length →
      streamWord (greyFrame V.reverse) k = streamWord (greyFrame V) (V.length - 1 - k))
    ∧ ∀ S : List Bool, S.length % 16 = 0 → stream (onoffFrame S.reverse) = (stream (onoffFrame S)).reverse

/-! ### TRANSMIT -/

/-- R144, R145: a frame whose length is not 24 × N is rejected with E_FRAME_LENGTH before any event: LINES, PEND and the chain are
unchanged, as is everything but CODE. A non-zero `pos` is rejected with E_RESERVED (R89, R146; decision D35), and that comes
first (R183; decision D16). -/
def Obligations.TransmitRejectsBeforeAnyEvent : Prop :=
  ∀ (pos : BitVec 12) (F : Frame) (s : State),
    (pos ≠ 0 → exec (.transmit pos F) s = .next { s with code := .reserved })
      ∧ (pos = 0 → F.length ≠ 24 * s.config.n → exec (.transmit pos F) s = .next { s with code := .frameLength })

/-- R146, R147, R148 (decisions D3, D4 and D28): a TRANSMIT is accepted with its protocol pending, bit m of the frame's stream being
bit 7 − m mod 8 of byte m div 8; nothing else changes. -/
def Obligations.TransmitQueuesTheProtocol : Prop :=
  ∀ (F : Frame) (s : State), F.length = 24 * s.config.n →
    ∃ sh : List Event,
      sh = (List.range (8 * F.length)).flatMap (fun m =>
            [⟨.sdata, (F.getD (m / 8) 0).getLsbD (7 - m % 8)⟩, ⟨.sclk, true⟩, ⟨.sclk, false⟩])
        ∧ (s.config.blankOrder = .contract → exec (.transmit 0 F) s = .next { s with
            pend := [⟨.blank, true⟩] ++ sh ++ [⟨.latch, true⟩, ⟨.latch, false⟩] ++ [⟨.blank, false⟩]
              ++ [⟨.gsclk, true⟩, ⟨.gsclk, false⟩] })
        ∧ (s.config.blankOrder = .reference → exec (.transmit 0 F) s = .next { s with
            pend := sh ++ [⟨.blank, true⟩] ++ [⟨.latch, true⟩, ⟨.latch, false⟩] ++ [⟨.blank, false⟩]
              ++ [⟨.gsclk, true⟩, ⟨.gsclk, false⟩] })

/-- R147, R148 (derived there): a TRANSMIT has 576N + 6 events, among them 192N that raise SCLK, one that raises LATCH and one that
raises GSCLK, in both orders. -/
def Obligations.TransmitEventCounts : Prop :=
  ∀ (order : BlankOrder) (F : Frame) (N : Nat), F.length = 24 * N →
    (txEvents order F).length = 576 * N + 6
      ∧ (txEvents order F).count ⟨.sclk, true⟩ = 192 * N
      ∧ (txEvents order F).count ⟨.latch, true⟩ = 1
      ∧ (txEvents order F).count ⟨.gsclk, true⟩ = 1

/-- R155 (with R190, decision D20): from acceptance until its last event a TRANSMIT holds the block: BUSY is 1 and no other command
is accepted; without reset it runs to completion, in 1 + 576N + 6 steps (R261). CODE is not written before the last event (R31,
decision D34); the vectors LK-1 and LK-3 show it as 0, where it was 0 before (notes/assumptions/8.md, DEDUCED). Nothing is returned
(R86; the list is notes/assumptions/4.md). -/
def Obligations.TransmitRunsToCompletion : Prop :=
  ∀ (s : State) (c : Command) (later : List Command) (F : Frame),
    s.pend = [] → s.inbox = c :: later → decode c = .command (.transmit 0 F) → F.length = 24 * s.config.n →
    s.resetQuiet (576 * s.config.n + 7) →
      (∀ k < 576 * s.config.n + 6, ∃ t, s.run (k + 1) = .next t ∧ t.busy = true
          ∧ t.pend.length = 576 * s.config.n + 6 - k ∧ t.inbox = later ∧ t.returned = s.returned ∧ t.code = s.code)
        ∧ ∃ t, s.run (576 * s.config.n + 7) = .next t ∧ t.busy = false
          ∧ t.pend = [] ∧ t.inbox = later ∧ t.returned = s.returned ∧ t.code = .ok

/-- R150, R151 (resting on decisions D4, D6, D8, D9 and D18): the end-state law. A TRANSMIT accepted in a state that meets the
invariant, whatever the chain holds, leaves the values V of its frame in every chain word, in ACT and in DISP, SHIFTING 0, and
the lines at the levels of R151 (AUX at 0 where it exists, R24), in either order. -/
def Obligations.CompletedTransmitLeavesTheFrame : Prop :=
  ∀ (s : State) (c : Command) (later : List Command) (F : Frame) (V : List Word12),
    s.Inv → s.pend = [] → s.inbox = c :: later → decode c = .command (.transmit 0 F) →
    V.length = 16 * s.config.n → greyFrame V = F →
    s.resetQuiet (576 * s.config.n + 7) →
      ∃ t, s.run (576 * s.config.n + 7) = .next t
        ∧ (∀ w v, V[w]? = some v → chainWord t.chain.sr w = .value v)
        ∧ t.chain.act = V.map .value
        ∧ t.chain.disp = V.map .value
        ∧ t.chain.shifting = false
        ∧ t.lines = ⟨.zero, .zero, .zero, .zero, .zero, Level.ofBool ((F.getLastD 0).getLsbD 0), s.lines.aux⟩
        ∧ (s.config.nAux = 1 → t.lines.aux = .zero)
        ∧ t.pend = [] ∧ t.code = .ok ∧ t.config = s.config ∧ t.sized

/-- R152, R243 (derived there from R147 and R208; decision D9): the light of a CONTRACT-order TRANSMIT after its k-th event: all
outputs off until BLANK is de-asserted, the previous image until the greyscale-clock pulse, then the new one. -/
def Obligations.LightDuringAContractTransmit : Prop :=
  ∀ (s : State) (c : Command) (later : List Command) (F : Frame) (V : List Word12) (k : Nat),
    s.Inv → s.config.blankOrder = .contract → s.pend = [] → s.inbox = c :: later →
    decode c = .command (.transmit 0 F) → V.length = 16 * s.config.n → greyFrame V = F →
    1 ≤ k → k ≤ 576 * s.config.n + 6 → s.resetQuiet (k + 1) →
      ∃ t, s.run (k + 1) = .next t ∧ ∀ i < 16 * s.config.n,
        (k ≤ 576 * s.config.n + 3 → t.light i = .off)
          ∧ (k = 576 * s.config.n + 4 → t.light i = (s.chain.disp.getD i .undef).light)
          ∧ (576 * s.config.n + 5 ≤ k → t.light i = (Grey.value (V.getD i 0)).light)

/-- R148, R209, R242 (decisions D3 and D22): in the REFERENCE order, with BLANK at 0 before the TRANSMIT, every output shows ANY
from the first SCLK assert edge until BLANK is asserted after the shift. -/
def Obligations.GlitchWindowInTheReferenceOrder : Prop :=
  ∀ (s : State) (c : Command) (later : List Command) (F : Frame) (k : Nat),
    s.Inv → s.config.blankOrder = .reference → s.lines.blank = .zero → s.pend = [] → s.inbox = c :: later →
    decode c = .command (.transmit 0 F) → F.length = 24 * s.config.n →
    2 ≤ k → k ≤ 576 * s.config.n + 1 → s.resetQuiet (k + 1) →
      ∃ t, s.run (k + 1) = .next t ∧ ∀ i, t.light i = if k ≤ 576 * s.config.n then .any else .off

/-- R211 (derived there from R202), R202 (decision D4): after m bits of a TRANSMIT, in either order, cell q holds bit m − 1 − q for
q < m, and the old cell q − m beyond. Bit m is the (3m)-th event in the REFERENCE order, and one event later in the CONTRACT
order; the acceptance is one step more. A reset that comes then leaves the chain so (ResetInputRestartsTheBlock). -/
def Obligations.PartialShiftMixesOldAndNew : Prop :=
  ∀ (s : State) (c : Command) (later : List Command) (F : Frame) (m k : Nat),
    s.Inv → s.pend = [] → s.inbox = c :: later →
    decode c = .command (.transmit 0 F) → F.length = 24 * s.config.n → m ≤ 192 * s.config.n →
    (s.config.blankOrder = .contract ∧ k = 3 * m + 2 ∨ s.config.blankOrder = .reference ∧ k = 3 * m + 1) →
    s.resetQuiet k →
      ∃ t, s.run k = .next t
        ∧ (∀ q < m, t.chain.sr[q]? = ((stream F)[m - 1 - q]?).map Level.ofBool)
        ∧ (∀ q, m ≤ q → q < 192 * s.config.n → t.chain.sr[q]? = s.chain.sr[q - m]?)
        ∧ t.chain.act = s.chain.act ∧ t.chain.disp = s.chain.disp

/-- R92, R150, R208 (resting on decisions D4, D6, D8 and D9): SHOW. The host's ENCODE_ONOFF of 16N flags and TRANSMIT of the frame
end with exactly the outputs whose flag is on at full light and every other output off. R92's host issues the TRANSMIT when the
ENCODE_ONOFF has completed with CODE = 0; that `showCommands` presents both at once, deciding by the number of flags, is the
model's reading (notes/assumptions/22.md, DEDUCED), and the list of returned frames is its own (notes/assumptions/4.md). -/
def Obligations.ShowLightsExactlyTheOutputsThatAreOn : Prop :=
  ∀ (s : State) (S : List Bool) (later : List Command),
    s.Inv → s.pend = [] → S.length = 16 * s.config.n → s.inbox = showCommands S ++ later →
    s.resetQuiet (576 * s.config.n + 8) →
      ∃ t, s.run (576 * s.config.n + 8) = .next t
        ∧ (∀ i f, S[i]? = some f → t.light i = if f then .full else .off)
        ∧ t.inbox = later ∧ t.status = 0 ∧ t.returned = s.returned ++ [onoffFrame S]

/-! ### Invariants -/

/-- The invariant holds when reset ends, for every legal configuration, and so for State.reset. -/
def Obligations.InvariantHoldsAfterReset : Prop :=
  (∀ c : Config, c.legal → (State.resetWith c).Inv) ∧ State.reset.Inv

/-- R149, R241, R247, R28, R200 (R149 is derived there): every step keeps the invariant. Among the events pending, SCLK rises only
with LATCH and PROG at 0, SDATA moves only with SCLK at 0, LATCH rises only with SCLK and PROG at 0 and then falls in the next
event, with no event on SCLK after its rise, GSCLK rises only with BLANK at 0, PROG is never asserted, and the lines are idle at
the end, AUX at 0; no more than 576N + 6 events are pending, and the chain keeps its size. -/
def Obligations.EveryStepKeepsTheInvariant : Prop :=
  ∀ s t : State, s.Inv → step s = .next t → t.Inv

/-- R242, R209: no glitch window is open, or waiting to open, when reset ends. -/
def Obligations.NoGlitchWindowAfterReset : Prop :=
  ∀ c : Config, (State.resetWith c).glitchFree

/-- R242 (H3): with BLANK_ORDER = CONTRACT no step opens a glitch window, reset in the middle of a shift included. -/
def Obligations.ContractOrderKeepsTheGlitchWindowClosed : Prop :=
  ∀ s t : State, s.Inv → s.config.blankOrder = .contract → s.glitchFree → step s = .next t →
    t.glitchFree ∧ ¬(t.chain.shifting = true ∧ t.lines.blank = .zero)

/-- R25: INIT drives PROG to 0, and LINK never drives it to 1: no command's events do, so PROG stays off 1. -/
def Obligations.ProgIsNeverAsserted : Prop :=
  (∀ c : Config, (⟨.prog, false⟩ : Event) ∈ initEvents c ∧ (⟨.prog, true⟩ : Event) ∉ initEvents c)
    ∧ ∀ s t : State, s.lines.prog ≠ .one → (⟨.prog, true⟩ : Event) ∉ s.pend → step s = .next t →
        t.lines.prog ≠ .one ∧ (⟨.prog, true⟩ : Event) ∉ t.pend

/-- R203, R210 ("the block never makes this edge", decisions D23 and D24): no step of the block takes the content of a chain whose
cells and registers all hold values. -/
def Obligations.TheBlockNeverUndefinesTheChain : Prop :=
  ∀ s t : State, s.Inv → s.chain.defined → step s = .next t → t.chain.defined

/-! ### The attached chain -/

/-- R202, R203, R210 (decisions D4, D23 and D24; SHIFTING by R39, notes/assumptions/9.md and 10.md): an SCLK assert edge. -/
def Obligations.SclkEdgeShiftsTheChain : Prop :=
  ∀ (c : Chain) (l : Lines), l.sclk ≠ .one →
    (l.latch = .zero → l.prog = .zero →
        (c.react l ⟨.sclk, true⟩).sr.length = c.sr.length
          ∧ (∀ q, q + 1 < c.sr.length → (c.react l ⟨.sclk, true⟩).sr[q + 1]? = c.sr[q]?)
          ∧ (0 < c.sr.length → (c.react l ⟨.sclk, true⟩).sr[0]? = some l.sdata)
          ∧ (c.react l ⟨.sclk, true⟩).act = c.act ∧ (c.react l ⟨.sclk, true⟩).disp = c.disp)
      ∧ (l.latch = .one ∨ l.prog = .one →
          (c.react l ⟨.sclk, true⟩).sr = List.replicate c.sr.length .undef
            ∧ (c.react l ⟨.sclk, true⟩).act = List.replicate c.act.length .undef
            ∧ (c.react l ⟨.sclk, true⟩).disp = List.replicate c.disp.length .undef)
      ∧ (c.react l ⟨.sclk, true⟩).shifting = true

/-- R204, R210, R36 (decisions D8 and D24; notes/assumptions/10.md): a LATCH assert edge copies chain word w to ACT[w] for every w
at once, ⊥ if any of its 12 cells is ⊥; with PROG = 1 everything becomes ⊥. -/
def Obligations.LatchEdgeCopiesEveryChainWord : Prop :=
  ∀ (c : Chain) (l : Lines), l.latch ≠ .one →
    (l.prog = .zero →
        (c.react l ⟨.latch, true⟩).act.length = c.act.length
          ∧ (∀ w < c.act.length,
              ((∃ t < 12, c.sr[12 * w + t]? = some .undef) → (c.react l ⟨.latch, true⟩).act[w]? = some .undef)
                ∧ ∀ v : Word12, (∀ t < 12, c.sr[12 * w + t]? = some (Level.ofBool (v.getLsbD t))) →
                    (c.react l ⟨.latch, true⟩).act[w]? = some (.value v))
          ∧ (c.react l ⟨.latch, true⟩).sr = c.sr ∧ (c.react l ⟨.latch, true⟩).disp = c.disp)
      ∧ (l.prog = .one →
          (c.react l ⟨.latch, true⟩).sr = List.replicate c.sr.length .undef
            ∧ (c.react l ⟨.latch, true⟩).act = List.replicate c.act.length .undef
            ∧ (c.react l ⟨.latch, true⟩).disp = List.replicate c.disp.length .undef)
      ∧ (c.react l ⟨.latch, true⟩).shifting = false

/-- R206 (decision D9): a GSCLK assert edge copies ACT to DISP, ⊥ included, and changes nothing else. -/
def Obligations.GsclkEdgeArmsTheActiveValues : Prop :=
  ∀ (c : Chain) (l : Lines), l.gsclk ≠ .one → c.react l ⟨.gsclk, true⟩ = { c with disp := c.act }

/-- R201: an event that makes no edge on SCLK, LATCH or GSCLK, be it on another line or without an edge, changes no chain register;
Set(SDATA, d) changes only the level of SDATA, and Set(BLANK, v) only that of BLANK. Which events make no edge
is EdgesFollowTheLevels. -/
def Obligations.OtherEventsChangeNoChainRegister : Prop :=
  (∀ (c : Chain) (l : Lines) (line : Line), line ≠ .sclk → line ≠ .latch → line ≠ .gsclk →
      ∀ v : Bool, c.react l ⟨line, v⟩ = c)
    ∧ (∀ (c : Chain) (l : Lines) (e : Event), l.edge e = .none → c.react l e = c)
    ∧ (∀ (l : Lines) (d : Bool), l.drive ⟨.sdata, d⟩ = { l with sdata := Level.ofBool d })
    ∧ ∀ (l : Lines) (v : Bool), l.drive ⟨.blank, v⟩ = { l with blank := Level.ofBool v }

/-- R205, R207 (decisions D4, D8 and D9): driving a line to 0 changes no chain register, whatever the line and its level. -/
def Obligations.DeassertEdgesChangeNoChainRegister : Prop :=
  ∀ (c : Chain) (l : Lines) (line : Line), c.react l ⟨line, false⟩ = c

/-- R208, R209 (decisions D10 and D22): what output i shows, case by case in the spec's order. -/
def Obligations.LightFollowsTheTable : Prop :=
  ∀ (s : State) (i : Nat),
    (s.lines.blank = .one → s.light i = .off)
      ∧ (s.lines.blank = .undef → s.light i = .any)
      ∧ (s.lines.blank = .zero → s.chain.shifting = true → s.light i = .any)
      ∧ (s.lines.blank = .zero → s.chain.shifting = false →
          (s.chain.disp[i]? = some (.value 0) → s.light i = .off)
            ∧ (s.chain.disp[i]? = some (.value 4095) → s.light i = .full)
            ∧ (s.chain.disp[i]? = some .undef → s.light i = .any)
            ∧ ∀ v : Word12, 1 ≤ v.toNat → v.toNat ≤ 4094 → s.chain.disp[i]? = some (.value v) → s.light i = .on)

/-- R140 (for a line at ⊥ R44, decision D31): an event makes an assert edge when it drives a line that is not at 1 to 1, a de-assert
edge when it drives a line at 1 to 0, and otherwise no edge: the line has the level already, or is at ⊥ and driven to 0. -/
def Obligations.EdgesFollowTheLevels : Prop :=
  ∀ (l : Lines) (e : Event),
    (l.edge e = .assert ↔ e.level = true ∧ (l.get e.line = .zero ∨ l.get e.line = .undef))
      ∧ (l.edge e = .deassert ↔ e.level = false ∧ l.get e.line = .one)
      ∧ (l.edge e = .none ↔ l.get e.line = Level.ofBool e.level ∨ (e.level = false ∧ l.get e.line = .undef))
end

