-- ==== Sys2Proof/Laws/Frame.lean ====
section
/-! SUPPORT. Lemmas of the bit stream and the packing. -/

namespace Sys2Proof.Machine

@[simp] theorem bits8_length (b : Byte) : (bits8 b).length = 8 := rfl

@[simp] theorem bits12_length (v : Word12) : (bits12 v).length = 12 := rfl

@[simp] theorem stream_nil : stream [] = [] := rfl

@[simp] theorem stream_cons (b : Byte) (f : Frame) : stream (b :: f) = bits8 b ++ stream f := rfl

/-- The stream of a concatenation is the concatenation of the streams. -/
theorem stream_append (f g : Frame) : stream (f ++ g) = stream f ++ stream g := by
  simp [stream]

/-- A frame of B bytes has 8B bits. -/
@[simp] theorem stream_length (f : Frame) : (stream f).length = 8 * f.length := by
  induction f with
  | nil => rfl
  | cons b f ih =>
    rw [stream_cons, List.length_append, ih, bits8_length, List.length_cons]
    omega

/-- `pack8` takes the first 8 bits as one byte. -/
theorem pack8_eight (b7 b6 b5 b4 b3 b2 b1 b0 : Bool) (rest : List Bool) :
    pack8 ([b7, b6, b5, b4, b3, b2, b1, b0] ++ rest) =
      BitVec.ofNat 8 (bitsValue [b7, b6, b5, b4, b3, b2, b1, b0]) :: pack8 rest := rfl

/-- A list of 8 bits, written out. -/
theorem eight_bits_of_length (a : List Bool) (h : a.length = 8) :
    ∃ b7 b6 b5 b4 b3 b2 b1 b0, a = [b7, b6, b5, b4, b3, b2, b1, b0] := by
  match a, h with
  | [b7, b6, b5, b4, b3, b2, b1, b0], _ => exact ⟨b7, b6, b5, b4, b3, b2, b1, b0, rfl⟩

/-- A whole number of bytes packs on its own. -/
theorem pack8_append (k : Nat) (a b : List Bool) (h : a.length = 8 * k) : pack8 (a ++ b) = pack8 a ++ pack8 b := by
  induction k generalizing a with
  | zero =>
    have : a = [] := List.length_eq_zero_iff.mp (by omega)
    subst this
    rfl
  | succ k ih =>
    obtain ⟨b7, b6, b5, b4, b3, b2, b1, b0, h8⟩ := eight_bits_of_length (a.take 8) (by simp; omega)
    have ha : a = [b7, b6, b5, b4, b3, b2, b1, b0] ++ a.drop 8 := by rw [← h8, List.take_append_drop]
    rw [ha, List.append_assoc, pack8_eight, pack8_eight, ih (a.drop 8) (by simp; omega)]
    rfl

/-- `pack8` makes one byte of 8 bits. -/
theorem pack8_length (k : Nat) (a : List Bool) (h : a.length = 8 * k) : (pack8 a).length = k := by
  induction k generalizing a with
  | zero =>
    have : a = [] := List.length_eq_zero_iff.mp (by omega)
    subst this
    rfl
  | succ k ih =>
    obtain ⟨b7, b6, b5, b4, b3, b2, b1, b0, h8⟩ := eight_bits_of_length (a.take 8) (by simp; omega)
    have ha : a = [b7, b6, b5, b4, b3, b2, b1, b0] ++ a.drop 8 := by rw [← h8, List.take_append_drop]
    rw [ha, pack8_eight, List.length_cons, ih (a.drop 8) (by simp; omega)]

/-- A list of equally long pieces has that many bits a piece. -/
theorem flatMap_length_const {α : Type} (m : Nat) (f : α → List Bool) (hf : ∀ x, (f x).length = m) (xs : List α) :
    (xs.flatMap f).length = m * xs.length := by
  induction xs with
  | nil => rfl
  | cons x xs ih => rw [List.flatMap_cons, List.length_append, hf, ih, List.length_cons, Nat.mul_succ, Nat.add_comm]

/-- The bit list of an Output Specification has 12 bits a flag (R112). -/
theorem onoffBits_length (flags : List Bool) :
    (flags.reverse.flatMap fun f => List.replicate 12 f).length = 12 * flags.length := by
  rw [flatMap_length_const 12 _ (fun _ => List.length_replicate), List.length_reverse]

/-- The bit list of greyscale values has 12 bits a value (R116). -/
theorem greyBits_length (values : List Word12) : (values.reverse.flatMap bits12).length = 12 * values.length := by
  rw [flatMap_length_const 12 _ bits12_length, List.length_reverse]

@[simp] theorem frameWrite_length (f : Frame) (j : Nat) (v : Byte) : (frameWrite f j v).length = f.length := by
  simp [frameWrite]

@[simp] theorem overlayFrame_length (f : Frame) (o : Nat) : (overlayFrame f o).length = f.length := by
  simp [overlayFrame]

end Sys2Proof.Machine
end

