-- ==== Sys2Proof/Laws/Lines.lean ====
section
/-! SUPPORT. Lemmas of the lines, the edges and the chain's reaction to one event. -/

namespace Sys2Proof.Machine

@[simp] theorem Level.ofBool_true : Level.ofBool true = .one := rfl

@[simp] theorem Level.ofBool_false : Level.ofBool false = .zero := rfl

/-- A driven level is never ⊥. -/
@[simp] theorem Level.ofBool_ne_undef (b : Bool) : Level.ofBool b ≠ .undef := by cases b <;> decide

/-- The driven line takes the level of the event (R140). -/
@[simp] theorem Lines.drive_get_self (l : Lines) (e : Event) : (l.drive e).get e.line = Level.ofBool e.level := by
  cases e with
  | mk line level => cases line <;> rfl

/-- One event drives exactly one line (R140). -/
theorem Lines.drive_get_other (l : Lines) (e : Event) (line : Line) (h : line ≠ e.line) :
    (l.drive e).get line = l.get line := by
  cases e with
  | mk el level => cases el <;> cases line <;> first | rfl | exact absurd rfl h

/-- What an assert edge is (R140, R44). -/
theorem edgeOf_eq_assert (old : Level) (level : Bool) : edgeOf old level = .assert ↔ level = true ∧ old ≠ .one := by
  cases level <;> cases old <;> decide

/-- Which events make no edge (R140, R44). -/
theorem edgeOf_eq_none (old : Level) (level : Bool) :
    edgeOf old level = .none ↔ old = Level.ofBool level ∨ (level = false ∧ old = .undef) := by
  cases level <;> cases old <;> decide

/-- The shift keeps the number of cells (R202). -/
@[simp] theorem shiftIn_length (d : Level) (sr : List Level) : (shiftIn d sr).length = sr.length := by
  simp [shiftIn]

@[simp] theorem Chain.poison_shifting (c : Chain) : c.poison.shifting = c.shifting := rfl

/-- Without an assert edge no chain register changes (R201, R205, R207). -/
theorem Chain.react_of_no_assert (c : Chain) (l : Lines) (e : Event) (h : l.edge e ≠ .assert) : c.react l e = c := by
  unfold Chain.react
  cases hedge : l.edge e with
  | assert => exact absurd hedge h
  | deassert => rfl
  | none => rfl

/-- On an assert edge only SCLK, LATCH and GSCLK act on the chain (R201). -/
theorem Chain.react_of_assert (c : Chain) (l : Lines) (e : Event) (h : l.edge e = .assert) :
    c.react l e =
      match e.line with
      | .sclk => c.onSclk l
      | .latch => c.onLatch l
      | .gsclk => c.onGsclk
      | .blank => c
      | .prog => c
      | .sdata => c
      | .aux => c := by
  unfold Chain.react
  generalize l.edge e = d at h
  subst h
  rfl

/-- The chain's reaction, in full: nothing, or one of the three registers' rules (R202 to R207). -/
theorem Chain.react_cases (c : Chain) (l : Lines) (e : Event) :
    c.react l e = c
      ∨ (e.line = .sclk ∧ l.edge e = .assert ∧ c.react l e = c.onSclk l)
      ∨ (e.line = .latch ∧ l.edge e = .assert ∧ c.react l e = c.onLatch l)
      ∨ (e.line = .gsclk ∧ l.edge e = .assert ∧ c.react l e = c.onGsclk) := by
  by_cases h : l.edge e = .assert
  · rw [Chain.react_of_assert c l e h]
    cases hl : e.line <;> simp [h]
  · exact .inl (Chain.react_of_no_assert c l e h)

theorem Chain.onSclk_sr_length (c : Chain) (l : Lines) : (c.onSclk l).sr.length = c.sr.length := by
  unfold Chain.onSclk
  split <;> simp [Chain.poison]

theorem Chain.onSclk_act_length (c : Chain) (l : Lines) : (c.onSclk l).act.length = c.act.length := by
  unfold Chain.onSclk
  split <;> simp [Chain.poison]

theorem Chain.onSclk_disp_length (c : Chain) (l : Lines) : (c.onSclk l).disp.length = c.disp.length := by
  unfold Chain.onSclk
  split <;> simp [Chain.poison]

theorem Chain.onLatch_sr_length (c : Chain) (l : Lines) : (c.onLatch l).sr.length = c.sr.length := by
  unfold Chain.onLatch
  split <;> simp [Chain.poison]

theorem Chain.onLatch_act_length (c : Chain) (l : Lines) : (c.onLatch l).act.length = c.act.length := by
  unfold Chain.onLatch
  split <;> simp [Chain.poison]

theorem Chain.onLatch_disp_length (c : Chain) (l : Lines) : (c.onLatch l).disp.length = c.disp.length := by
  unfold Chain.onLatch
  split <;> simp [Chain.poison]

/-- No event changes the number of cells of SR. -/
theorem Chain.react_sr_length (c : Chain) (l : Lines) (e : Event) : (c.react l e).sr.length = c.sr.length := by
  rcases Chain.react_cases c l e with h | ⟨-, -, h⟩ | ⟨-, -, h⟩ | ⟨-, -, h⟩ <;> rw [h]
  · exact Chain.onSclk_sr_length c l
  · exact Chain.onLatch_sr_length c l
  · rfl

/-- No event changes the number of ACT registers. -/
theorem Chain.react_act_length (c : Chain) (l : Lines) (e : Event) : (c.react l e).act.length = c.act.length := by
  rcases Chain.react_cases c l e with h | ⟨-, -, h⟩ | ⟨-, -, h⟩ | ⟨-, -, h⟩ <;> rw [h]
  · exact Chain.onSclk_act_length c l
  · exact Chain.onLatch_act_length c l
  · rfl

/-- No event changes the number of DISP registers, where DISP has as many as ACT. -/
theorem Chain.react_disp_length (c : Chain) (l : Lines) (e : Event) (hc : c.disp.length = c.act.length) :
    (c.react l e).disp.length = c.disp.length := by
  rcases Chain.react_cases c l e with h | ⟨-, -, h⟩ | ⟨-, -, h⟩ | ⟨-, -, h⟩ <;> rw [h]
  · exact Chain.onSclk_disp_length c l
  · exact Chain.onLatch_disp_length c l
  · exact hc.symm

end Sys2Proof.Machine
end

