-- ==== Sys2Proof/Laws/Events.lean ====
section
/-! SUPPORT. Lemmas of the event lists of INIT and TRANSMIT. -/

namespace Sys2Proof.Machine

@[simp] theorem Chain.onSclk_shifting (c : Chain) (l : Lines) : (c.onSclk l).shifting = true := by
  unfold Chain.onSclk
  split <;> rfl

@[simp] theorem Chain.onLatch_shifting (c : Chain) (l : Lines) : (c.onLatch l).shifting = false := by
  unfold Chain.onLatch
  split <;> rfl

/-- The chain's SHIFTING bit is what `shiftingAfter` says (R39). -/
theorem Chain.react_shifting (c : Chain) (l : Lines) (e : Event) :
    (c.react l e).shifting = shiftingAfter l e c.shifting := by
  unfold Chain.react shiftingAfter
  cases l.edge e <;> cases e.line <;> simp [Chain.onGsclk]

/-- INIT has 6 events, or 7 (R143). -/
theorem initEvents_length (c : Config) : (initEvents c).length = 6 + if c.nAux = 1 then 1 else 0 := by
  unfold initEvents
  split <;> rfl

theorem initEvents_ne_nil (c : Config) : initEvents c ≠ [] := by
  simp [initEvents]

theorem txEvents_ne_nil (o : BlankOrder) (f : Frame) : txEvents o f ≠ [] := by
  cases o <;> simp [txEvents]

/-- Three events a bit (R147). -/
theorem shiftFrame_length (f : Frame) : (shiftFrame f).length = 24 * f.length := by
  have h : ∀ bs : List Bool, (bs.flatMap shiftBit).length = 3 * bs.length := by
    intro bs
    induction bs with
    | nil => rfl
    | cons b bs ih => rw [List.flatMap_cons, List.length_append, ih, List.length_cons]; simp [shiftBit]; omega
  rw [shiftFrame, h, stream_length]
  omega

/-- Both orders have the same number of events (R147, R148). -/
theorem txEvents_length (o : BlankOrder) (f : Frame) : (txEvents o f).length = 24 * f.length + 6 := by
  cases o <;> simp [txEvents, shiftFrame_length, latchAndShow]

/-- A list that is performed cleanly is performed cleanly up to any point of it. -/
theorem cleanFrom_append (l : Lines) (es fs : List Event) :
    cleanFrom l (es ++ fs) =
      (es.foldl (fun (p : Bool × Lines) e => (p.1 && e.clean p.2, p.2.drive e)) (true, l)).1.and
        (cleanFrom (es.foldl Lines.drive l) fs) := by
  have gen : ∀ (es : List Event) (b : Bool) (l : Lines),
      (b && cleanFrom l (es ++ fs)) =
        (es.foldl (fun (p : Bool × Lines) e => (p.1 && e.clean p.2, p.2.drive e)) (b, l)).1.and
          (cleanFrom (es.foldl Lines.drive l) fs) := by
    intro es
    induction es with
    | nil => intro b l; rfl
    | cons e es ih =>
      intro b l
      simp only [List.cons_append, cleanFrom, List.foldl_cons]
      rw [← Bool.and_assoc, ih]
  simpa using gen es true l

/-- What remains of a list whose latch pulses come after the shift is such a list. -/
theorem latchAfterShift_tail (e : Event) (es : List Event) (h : latchAfterShift (e :: es) = true) :
    latchAfterShift es = true := by
  rw [latchAfterShift, Bool.and_eq_true] at h
  exact h.2

/-- Events that do not raise LATCH may stand before any list. -/
theorem latchAfterShift_append (es fs : List Event) (h : ⟨.latch, true⟩ ∉ es) :
    latchAfterShift (es ++ fs) = latchAfterShift fs := by
  induction es with
  | nil => rfl
  | cons e es ih =>
    rw [List.mem_cons, not_or] at h
    have he : (e != ⟨.latch, true⟩) = true := bne_iff_ne.mpr (Ne.symm h.1)
    rw [List.cons_append, latchAfterShift, he, Bool.true_or, Bool.true_and, ih h.2]

/-- The shift drives only SDATA and SCLK (R147). -/
theorem shiftFrame_line (f : Frame) (e : Event) (h : e ∈ shiftFrame f) : e.line = .sdata ∨ e.line = .sclk := by
  obtain ⟨b, -, hb⟩ := List.mem_flatMap.mp h
  simp only [shiftBit, List.mem_cons, List.not_mem_nil, or_false] at hb
  rcases hb with rfl | rfl | rfl
  · exact .inl rfl
  · exact .inr rfl
  · exact .inr rfl

/-- The latch pulse of a TRANSMIT comes after its shift, in both orders (R149). -/
theorem latchAfterShift_txEvents (o : BlankOrder) (f : Frame) : latchAfterShift (txEvents o f) = true := by
  have hsh : (⟨.latch, true⟩ : Event) ∉ shiftFrame f := fun h => by
    rcases shiftFrame_line f _ h with h | h <;> cases h
  cases o with
  | contract =>
    rw [txEvents, latchAfterShift, latchAfterShift_append _ _ hsh]
    rfl
  | reference =>
    rw [txEvents, latchAfterShift_append _ _ hsh]
    rfl

/-- INIT has no latch pulse (R143). -/
theorem latchAfterShift_initEvents (c : Config) : latchAfterShift (initEvents c) = true := by
  unfold initEvents
  split <;> rfl

/-- Performing one event of a list first does not change where AUX ends. -/
theorem auxIdleAfter_cons (c : Config) (l : Lines) (e : Event) (es : List Event) :
    auxIdleAfter c l (e :: es) = auxIdleAfter c (l.drive e) es := rfl

/-- Events that do not drive AUX leave its level. -/
theorem foldl_drive_aux (es : List Event) (l : Lines) (h : ∀ e ∈ es, e.line ≠ .aux) :
    (es.foldl Lines.drive l).aux = l.aux := by
  induction es generalizing l with
  | nil => rfl
  | cons e es ih =>
    rw [List.foldl_cons, ih (l.drive e) fun e' he' => h e' (List.mem_cons_of_mem e he')]
    exact l.drive_get_other e .aux (Ne.symm (h e List.mem_cons_self))

/-- No event of a TRANSMIT drives AUX (R24). -/
theorem auxIdleAfter_txEvents (c : Config) (l : Lines) (o : BlankOrder) (f : Frame) :
    auxIdleAfter c l (txEvents o f) = auxIdleAfter c l [] := by
  have hsh : ∀ e ∈ shiftFrame f, e.line ≠ .aux := fun e he => by
    rcases shiftFrame_line f e he with h | h <;> rw [h] <;> decide
  have hls : ∀ e ∈ latchAndShow, e.line ≠ .aux := by decide
  have htx : ∀ e ∈ txEvents o f, e.line ≠ .aux := by
    intro e he
    cases o <;> simp only [txEvents, List.mem_cons, List.mem_append] at he
    · rcases he with rfl | he | he
      · decide
      · exact hsh e he
      · exact hls e he
    · rcases he with he | rfl | he
      · exact hsh e he
      · decide
      · exact hls e he
  rw [auxIdleAfter, foldl_drive_aux _ l htx]
  rfl

/-- INIT leaves AUX at 0 where it exists (R143). -/
theorem auxIdleAfter_initEvents (c : Config) (l : Lines) : auxIdleAfter c l (initEvents c) = true := by
  unfold auxIdleAfter initEvents
  by_cases h : c.nAux = 1
  · rw [if_pos h, h]
    rfl
  · rw [bne_iff_ne.mpr h, Bool.true_or]

end Sys2Proof.Machine
end

