-- ==== Sys2Proof/Laws/PerInstr.lean ====
section
/-! SUPPORT. Lemmas that hold of every command, one per constructor of `Instr`: the family `WordFields` says that the three
fields the decoder reads from an encoded well-formed command are those the command was encoded from (R81, R87). -/

namespace Sys2Proof.Laws

theorem opField_commandWord (op : BitVec 4) (pos : BitVec 12) (count : Nat) : opField (commandWord op pos count) = op := by
  apply BitVec.eq_of_getLsbD_eq
  intro i hi
  simp only [opField, commandWord, BitVec.getLsbD_extractLsb', BitVec.getLsbD_append]
  have h1 : ¬ 28 + i < 16 := by omega
  have h2 : ¬ 28 + i - 16 < 12 := by omega
  have h3 : 28 + i - 16 - 12 = i := by omega
  simp [hi, h1, h2, h3]

theorem posField_commandWord (op : BitVec 4) (pos : BitVec 12) (count : Nat) : posField (commandWord op pos count) = pos := by
  apply BitVec.eq_of_getLsbD_eq
  intro i hi
  simp only [posField, commandWord, BitVec.getLsbD_extractLsb', BitVec.getLsbD_append]
  have h1 : ¬ 16 + i < 16 := by omega
  have h2 : 16 + i - 16 < 12 := by omega
  have h3 : 16 + i - 16 = i := by omega
  simp [hi, h1, h3]

theorem countField_commandWord (op : BitVec 4) (pos : BitVec 12) (count : Nat) :
    countField (commandWord op pos count) = BitVec.ofNat 16 count := by
  apply BitVec.eq_of_getLsbD_eq
  intro i hi
  simp only [countField, commandWord, BitVec.getLsbD_extractLsb', BitVec.getLsbD_append]
  simp [hi]

/-- The payload has as many elements as the field `count` says (R84, R85). -/
theorem payload_length (i : Instr) : i.payload.length = i.count := by
  cases i <;> simp [Instr.payload, Instr.count]

/-- What every command's encoding says of its word, if it is well formed. -/
def WordFields.Statement (i : Instr) : Prop :=
  i.wellFormed = true →
    opField (encode i).word = i.op ∧ posField (encode i).word = i.pos
      ∧ (countField (encode i).word).toNat = i.count ∧ (encode i).payload.length = i.count

theorem WordFields.of_wellFormed (i : Instr) : WordFields.Statement i := by
  intro h
  have hc : i.count ≤ 65535 := of_decide_eq_true h
  refine ⟨opField_commandWord _ _ _, posField_commandWord _ _ _, ?_, payload_length i⟩
  show (countField (commandWord i.op i.pos i.count)).toNat = i.count
  rw [countField_commandWord, BitVec.toNat_ofNat]
  exact Nat.mod_eq_of_lt (by omega)

theorem WordFields.init (pos : BitVec 12) (count : BitVec 16) : WordFields.Statement (.init pos count) :=
  WordFields.of_wellFormed _

theorem WordFields.encodeOnoff (pos : BitVec 12) (flags : List Bool) : WordFields.Statement (.encodeOnoff pos flags) :=
  WordFields.of_wellFormed _

theorem WordFields.encodeGs (pos : BitVec 12) (values : List Value16) : WordFields.Statement (.encodeGs pos values) :=
  WordFields.of_wellFormed _

theorem WordFields.dpOverlay (pos : BitVec 12) (frame : Frame) : WordFields.Statement (.dpOverlay pos frame) :=
  WordFields.of_wellFormed _

theorem WordFields.transmit (pos : BitVec 12) (frame : Frame) : WordFields.Statement (.transmit pos frame) :=
  WordFields.of_wellFormed _

end Sys2Proof.Laws
end

