-- ==== Sys2Proof/Laws/State.lean ====
section
/-! SUPPORT. One lemma per field per update of the state, so that no later proof unfolds a record update. -/

namespace Sys2Proof.Machine

@[simp] theorem State.reject_lines (s : State) (c : Code) : (s.reject c).lines = s.lines := rfl
@[simp] theorem State.reject_pend (s : State) (c : Code) : (s.reject c).pend = s.pend := rfl
@[simp] theorem State.reject_code (s : State) (c : Code) : (s.reject c).code = c := rfl
@[simp] theorem State.reject_config (s : State) (c : Code) : (s.reject c).config = s.config := rfl
@[simp] theorem State.reject_chain (s : State) (c : Code) : (s.reject c).chain = s.chain := rfl
@[simp] theorem State.reject_inbox (s : State) (c : Code) : (s.reject c).inbox = s.inbox := rfl
@[simp] theorem State.reject_returned (s : State) (c : Code) : (s.reject c).returned = s.returned := rfl
@[simp] theorem State.reject_resetIn (s : State) (c : Code) : (s.reject c).resetIn = s.resetIn := rfl

@[simp] theorem State.returnFrame_lines (s : State) (f : Frame) : (s.returnFrame f).lines = s.lines := rfl
@[simp] theorem State.returnFrame_pend (s : State) (f : Frame) : (s.returnFrame f).pend = s.pend := rfl
@[simp] theorem State.returnFrame_code (s : State) (f : Frame) : (s.returnFrame f).code = .ok := rfl
@[simp] theorem State.returnFrame_config (s : State) (f : Frame) : (s.returnFrame f).config = s.config := rfl
@[simp] theorem State.returnFrame_chain (s : State) (f : Frame) : (s.returnFrame f).chain = s.chain := rfl
@[simp] theorem State.returnFrame_inbox (s : State) (f : Frame) : (s.returnFrame f).inbox = s.inbox := rfl
@[simp] theorem State.returnFrame_returned (s : State) (f : Frame) : (s.returnFrame f).returned = s.returned ++ [f] := rfl
@[simp] theorem State.returnFrame_resetIn (s : State) (f : Frame) : (s.returnFrame f).resetIn = s.resetIn := rfl

@[simp] theorem State.begin_lines (s : State) (es : List Event) : (s.begin es).lines = s.lines := rfl
@[simp] theorem State.begin_pend (s : State) (es : List Event) : (s.begin es).pend = es := rfl
@[simp] theorem State.begin_code (s : State) (es : List Event) : (s.begin es).code = s.code := rfl
@[simp] theorem State.begin_config (s : State) (es : List Event) : (s.begin es).config = s.config := rfl
@[simp] theorem State.begin_chain (s : State) (es : List Event) : (s.begin es).chain = s.chain := rfl
@[simp] theorem State.begin_inbox (s : State) (es : List Event) : (s.begin es).inbox = s.inbox := rfl
@[simp] theorem State.begin_returned (s : State) (es : List Event) : (s.begin es).returned = s.returned := rfl
@[simp] theorem State.begin_resetIn (s : State) (es : List Event) : (s.begin es).resetIn = s.resetIn := rfl

@[simp] theorem State.perform_lines (s : State) (e : Event) : (s.perform e).lines = s.lines.drive e := rfl
@[simp] theorem State.perform_pend (s : State) (e : Event) : (s.perform e).pend = s.pend := rfl
@[simp] theorem State.perform_code (s : State) (e : Event) : (s.perform e).code = s.code := rfl
@[simp] theorem State.perform_config (s : State) (e : Event) : (s.perform e).config = s.config := rfl
@[simp] theorem State.perform_chain (s : State) (e : Event) : (s.perform e).chain = s.chain.react s.lines e := rfl
@[simp] theorem State.perform_inbox (s : State) (e : Event) : (s.perform e).inbox = s.inbox := rfl
@[simp] theorem State.perform_returned (s : State) (e : Event) : (s.perform e).returned = s.returned := rfl
@[simp] theorem State.perform_resetIn (s : State) (e : Event) : (s.perform e).resetIn = s.resetIn := rfl

@[simp] theorem State.controllerStep_lines (s : State) (e : Event) (rest : List Event) : (s.controllerStep e rest).lines = s.lines.drive e := rfl
@[simp] theorem State.controllerStep_pend (s : State) (e : Event) (rest : List Event) : (s.controllerStep e rest).pend = rest := rfl
@[simp] theorem State.controllerStep_code (s : State) (e : Event) (rest : List Event) : (s.controllerStep e rest).code = codeAfter rest s.code := rfl
@[simp] theorem State.controllerStep_config (s : State) (e : Event) (rest : List Event) : (s.controllerStep e rest).config = s.config := rfl
@[simp] theorem State.controllerStep_chain (s : State) (e : Event) (rest : List Event) : (s.controllerStep e rest).chain = s.chain.react s.lines e := rfl
@[simp] theorem State.controllerStep_inbox (s : State) (e : Event) (rest : List Event) : (s.controllerStep e rest).inbox = s.inbox := rfl
@[simp] theorem State.controllerStep_returned (s : State) (e : Event) (rest : List Event) : (s.controllerStep e rest).returned = s.returned := rfl
@[simp] theorem State.controllerStep_resetIn (s : State) (e : Event) (rest : List Event) : (s.controllerStep e rest).resetIn = s.resetIn := rfl

@[simp] theorem State.enterReset_lines (s : State) : (s.enterReset).lines = Lines.undriven := rfl
@[simp] theorem State.enterReset_pend (s : State) : (s.enterReset).pend = initEvents s.config := rfl
@[simp] theorem State.enterReset_code (s : State) : (s.enterReset).code = .ok := rfl
@[simp] theorem State.enterReset_config (s : State) : (s.enterReset).config = s.config := rfl
@[simp] theorem State.enterReset_chain (s : State) : (s.enterReset).chain = s.chain := rfl
@[simp] theorem State.enterReset_inbox (s : State) : (s.enterReset).inbox = s.inbox := rfl
@[simp] theorem State.enterReset_returned (s : State) : (s.enterReset).returned = s.returned := rfl
@[simp] theorem State.enterReset_resetIn (s : State) : (s.enterReset).resetIn = s.resetIn := rfl

@[simp] theorem State.tick_lines (s : State) : (s.tick).lines = s.lines := rfl
@[simp] theorem State.tick_pend (s : State) : (s.tick).pend = s.pend := rfl
@[simp] theorem State.tick_code (s : State) : (s.tick).code = s.code := rfl
@[simp] theorem State.tick_config (s : State) : (s.tick).config = s.config := rfl
@[simp] theorem State.tick_chain (s : State) : (s.tick).chain = s.chain := rfl
@[simp] theorem State.tick_inbox (s : State) : (s.tick).inbox = s.inbox := rfl
@[simp] theorem State.tick_returned (s : State) : (s.tick).returned = s.returned := rfl
@[simp] theorem State.tick_resetIn (s : State) : (s.tick).resetIn = s.resetIn.tail := rfl

@[simp] theorem State.resetWith_lines (c : Config) : (State.resetWith c).lines = Lines.undriven := rfl
@[simp] theorem State.resetWith_pend (c : Config) : (State.resetWith c).pend = initEvents c := rfl
@[simp] theorem State.resetWith_code (c : Config) : (State.resetWith c).code = .ok := rfl
@[simp] theorem State.resetWith_config (c : Config) : (State.resetWith c).config = c := rfl
@[simp] theorem State.resetWith_chain (c : Config) : (State.resetWith c).chain = Chain.powerUp c := rfl
@[simp] theorem State.resetWith_inbox (c : Config) : (State.resetWith c).inbox = [] := rfl
@[simp] theorem State.resetWith_returned (c : Config) : (State.resetWith c).returned = [] := rfl
@[simp] theorem State.resetWith_resetIn (c : Config) : (State.resetWith c).resetIn = [] := rfl

/-- Each update of a record's field is one of the operations: the forms in which statements write them. -/
theorem State.reject_eq (s : State) (c : Code) : s.reject c = { s with code := c } := rfl

theorem State.returnFrame_eq (s : State) (f : Frame) :
    s.returnFrame f = { s with code := .ok, returned := s.returned ++ [f] } := rfl

theorem State.begin_eq (s : State) (es : List Event) : s.begin es = { s with pend := es } := rfl

theorem State.tick_eq (s : State) : s.tick = { s with resetIn := s.resetIn.tail } := rfl

/-- `codeAfter` by the last event and by the others (R141). -/
@[simp] theorem codeAfter_nil (c : Code) : codeAfter [] c = .ok := rfl

@[simp] theorem codeAfter_cons (e : Event) (es : List Event) (c : Code) : codeAfter (e :: es) c = c := rfl

theorem codeAfter_eq (rest : List Event) (c : Code) : codeAfter rest c = if rest = [] then .ok else c := by
  cases rest <;> rfl

/-- BUSY is the emptiness of PEND (R30). -/
theorem State.busy_iff (s : State) : s.busy = true ↔ s.pend ≠ [] := by
  unfold State.busy
  cases s.pend <;> simp

end Sys2Proof.Machine
end

