-- ==== Sys2Proof/Laws/Step.lean ====
section
/-! SUPPORT. What `exec`, `accept`, `runBlock` and `step` can do, each said once; and runs. -/

namespace Sys2Proof.Machine

/-- Every command ends in a next state: a rejection, a returned frame, or an event list to perform. -/
theorem exec_cases (i : Instr) (s : State) :
    (∃ c, c ≠ .ok ∧ exec i s = .next (s.reject c))
      ∨ (∃ f, exec i s = .next (s.returnFrame f))
      ∨ exec i s = .next (s.begin (initEvents s.config))
      ∨ ∃ f, f.length = s.config.frameBytes ∧ exec i s = .next (s.begin (txEvents s.config.blankOrder f)) := by
  cases i with
  | init pos count =>
    simp only [exec, execInit]
    split
    · exact .inl ⟨.reserved, by decide, rfl⟩
    · exact .inr (.inr (.inl rfl))
  | encodeOnoff pos flags =>
    simp only [exec, execEncodeOnoff]
    split
    · exact .inl ⟨.reserved, by decide, rfl⟩
    · split
      · exact .inr (.inl ⟨_, rfl⟩)
      · exact .inl ⟨.specLength, by decide, rfl⟩
  | encodeGs pos values =>
    simp only [exec, execEncodeGs]
    split
    · exact .inl ⟨.reserved, by decide, rfl⟩
    · split
      · exact .inl ⟨.specLength, by decide, rfl⟩
      · split
        · exact .inr (.inl ⟨_, rfl⟩)
        · exact .inl ⟨.valueRange, by decide, rfl⟩
  | dpOverlay pos frame =>
    simp only [exec, execDpOverlay]
    split
    · exact .inr (.inl ⟨_, rfl⟩)
    · exact .inl ⟨.dpRange, by decide, rfl⟩
  | transmit pos frame =>
    simp only [exec, execTransmit]
    split
    · exact .inl ⟨.reserved, by decide, rfl⟩
    · split
      · rename_i h
        exact .inr (.inr (.inr ⟨frame, by simpa [fitsChain] using h, rfl⟩))
      · exact .inl ⟨.frameLength, by decide, rfl⟩

/-- What accepting a command can do. -/
theorem accept_cases (c : Command) (s t : State) (h : accept c s = .next t) :
    (∃ code, code ≠ .ok ∧ t = s.reject code)
      ∨ (∃ f, t = s.returnFrame f)
      ∨ t = s.begin (initEvents s.config)
      ∨ ∃ f, f.length = s.config.frameBytes ∧ t = s.begin (txEvents s.config.blankOrder f) := by
  unfold accept at h
  cases hd : decode c with
  | command i =>
    rw [hd] at h
    rcases exec_cases i s with ⟨code, hc, he⟩ | ⟨f, he⟩ | he | ⟨f, hf, he⟩ <;>
      (simp only [he, Host.Outcome.next.injEq] at h; subst h)
    · exact .inl ⟨code, hc, rfl⟩
    · exact .inr (.inl ⟨f, rfl⟩)
    · exact .inr (.inr (.inl rfl))
    · exact .inr (.inr (.inr ⟨f, hf, rfl⟩))
  | badOp =>
    rw [hd] at h
    simp only [Host.Outcome.next.injEq] at h
    subst h
    exact .inl ⟨.badOp, by decide, rfl⟩
  | payloadLength => rw [hd] at h; cases h
  | payloadType => rw [hd] at h; cases h

/-- What one step can do: reset, an event of the current command, waiting, or accepting the oldest command. -/
theorem step_cases (s t : State) (h : step s = .next t) :
    (s.resetNow = true ∧ t = s.tick.enterReset)
      ∨ (s.resetNow = false ∧ ∃ e rest, s.pend = e :: rest ∧ t = s.tick.controllerStep e rest)
      ∨ (s.resetNow = false ∧ s.pend = [] ∧ s.inbox = [] ∧ t = s.tick)
      ∨ (s.resetNow = false ∧ s.pend = [] ∧ ∃ c later, s.inbox = c :: later ∧
          accept c { s.tick with inbox := later } = .next t) := by
  unfold step at h
  cases hr : s.resetNow with
  | true =>
    simp only [hr, if_true, Host.Outcome.next.injEq] at h
    exact .inl ⟨rfl, h.symm⟩
  | false =>
    simp only [hr, Bool.false_eq_true, if_false] at h
    unfold runBlock at h
    simp only [State.tick_pend, State.tick_inbox] at h
    cases hp : s.pend with
    | cons e rest =>
      simp only [hp, Host.Outcome.next.injEq] at h
      exact .inr (.inl ⟨rfl, e, rest, rfl, h.symm⟩)
    | nil =>
      simp only [hp] at h
      cases hi : s.inbox with
      | nil =>
        simp only [hi, Host.Outcome.next.injEq] at h
        exact .inr (.inr (.inl ⟨rfl, rfl, rfl, h.symm⟩))
      | cons c later =>
        simp only [hi] at h
        refine .inr (.inr (.inr ⟨rfl, rfl, c, later, rfl, ?_⟩))
        rw [← hp] at h
        exact h

@[simp] theorem State.run_zero (s : State) : s.run 0 = .next s := rfl

/-- A run is its first step and the rest. -/
theorem State.run_succ (s t : State) (k : Nat) (h : step s = .next t) : s.run (k + 1) = t.run k := by
  have hc : Sys2Proof.core.step s = .next t := h
  have hrun := Host.Core.run.eq_2 Sys2Proof.core s k
  rw [hc] at hrun
  exact hrun

/-- A run whose first step does not answer a next state ends there. -/
theorem State.run_succ_refused (s : State) (k : Nat) (r : Refusal) (h : step s = .refused r) :
    s.run (k + 1) = .refused r := by
  have hc : Sys2Proof.core.step s = .refused r := h
  have hrun := Host.Core.run.eq_2 Sys2Proof.core s k
  rw [hc] at hrun
  exact hrun

/-- Runs compose. -/
theorem State.run_add (s t : State) (j k : Nat) (h : s.run j = .next t) : s.run (j + k) = t.run k := by
  induction j generalizing s with
  | zero =>
    rw [State.run_zero] at h
    injection h with h
    subst h
    rw [Nat.zero_add]
  | succ j ih =>
    cases hstep : step s with
    | next u =>
      rw [State.run_succ s u _ hstep] at h
      rw [Nat.add_right_comm, State.run_succ s u _ hstep, ih u h]
    | fault r => exact nomatch r
    | refused r =>
      rw [State.run_succ_refused s _ r hstep] at h
      cases h

/-- A reset input that is quiet for one step more is not asserted now, and is quiet after this step. -/
theorem State.resetQuiet_succ (s : State) (k : Nat) (h : s.resetQuiet (k + 1)) :
    s.resetNow = false ∧ s.tick.resetQuiet k := by
  unfold State.resetQuiet at *
  unfold State.resetNow
  rw [State.tick_resetIn]
  cases hr : s.resetIn with
  | nil => simp
  | cons b bs =>
    rw [hr] at h
    cases b
    · simpa using h
    · simp at h

/-- The lines and the chain after a list of events is performed in order (R140, R200). -/
def driveAll (p : Lines × Chain) (es : List Event) : Lines × Chain :=
  es.foldl (fun p e => (p.1.drive e, p.2.react p.1 e)) p

@[simp] theorem driveAll_nil (p : Lines × Chain) : driveAll p [] = p := rfl

@[simp] theorem driveAll_cons (p : Lines × Chain) (e : Event) (es : List Event) :
    driveAll p (e :: es) = driveAll (p.1.drive e, p.2.react p.1 e) es := rfl

theorem driveAll_append (p : Lines × Chain) (es fs : List Event) :
    driveAll p (es ++ fs) = driveAll (driveAll p es) fs := by
  simp [driveAll]

/-- The run that performs the first events of PEND, one a step (R141): the lines and the chain are driven by those events, the
rest of the list stays pending, and nothing else changes but CODE, when the last event completes the command. -/
theorem State.run_pending (s : State) (es rest : List Event) (hp : s.pend = es ++ rest) (hq : s.resetQuiet es.length) :
    s.run es.length =
      .next {
        lines := (driveAll (s.lines, s.chain) es).1
        pend := rest
        code := if es = [] then s.code else codeAfter rest s.code
        config := s.config
        chain := (driveAll (s.lines, s.chain) es).2
        inbox := s.inbox
        returned := s.returned
        resetIn := s.resetIn.drop es.length } := by
  induction es generalizing s with
  | nil =>
    have hp' : rest = s.pend := hp.symm
    subst hp'
    rfl
  | cons e es ih =>
    obtain ⟨hr, hq'⟩ := s.resetQuiet_succ es.length hq
    have hstep : step s = .next (s.tick.controllerStep e (es ++ rest)) := by
      unfold step
      simp only [hr, Bool.false_eq_true, if_false, runBlock, State.tick_pend, hp, List.cons_append]
    rw [List.length_cons, State.run_succ s _ _ hstep, ih (s.tick.controllerStep e (es ++ rest)) rfl hq']
    cases es with
    | nil => cases rest <;> simp
    | cons e' es' => simp

/-- Shifting more cells than the register has keeps only the last ones: the shift of one more bit. -/
theorem take_append_take (n : Nat) (xs ys : List Level) : (xs ++ ys.take n).take n = (xs ++ ys).take n := by
  rw [List.take_append, List.take_append, List.take_take, Nat.min_eq_left (by omega)]

/-- The lines and the chain after any number of bits is shifted from lines with LATCH, PROG and SCLK at 0 (R147, R202): the
register holds the bits, the last one nearest the host, and as many of the old cells as there is room for. -/
theorem driveAll_shiftBits (bits : List Bool) (blank gsclk sdata aux : Level) (sr : List Level) (act disp : List Grey)
    (shifting : Bool) :
    driveAll (⟨blank, .zero, gsclk, .zero, .zero, sdata, aux⟩, ⟨sr, act, disp, shifting⟩) (bits.flatMap shiftBit) =
      (⟨blank, .zero, gsclk, .zero, .zero, (bits.getLast?.map Level.ofBool).getD sdata, aux⟩,
       ⟨(bits.reverse.map Level.ofBool ++ sr).take sr.length, act, disp, shifting || !bits.isEmpty⟩) := by
  induction bits generalizing sdata sr shifting with
  | nil => simp
  | cons b bits ih =>
    rw [List.flatMap_cons, driveAll_append]
    have one : driveAll (⟨blank, .zero, gsclk, .zero, .zero, sdata, aux⟩, ⟨sr, act, disp, shifting⟩) (shiftBit b) =
        (⟨blank, .zero, gsclk, .zero, .zero, Level.ofBool b, aux⟩, ⟨shiftIn (Level.ofBool b) sr, act, disp, true⟩) := by
      cases sdata <;> cases b <;> rfl
    rw [one, ih]
    congr 2
    · cases bits with
      | nil => simp
      | cons b' bits =>
        rw [List.getLast?_cons_cons, List.getLast?_eq_some_getLast (by simp)]
        simp
    · rw [shiftIn_length]
      show (bits.reverse.map Level.ofBool ++ (Level.ofBool b :: sr).take sr.length).take sr.length = _
      rw [take_append_take]
      simp
    · simp

/-- What it is for lines to be idle. -/
theorem Lines.idle_iff (l : Lines) :
    l.idle = true ↔
      l.latch = .zero ∧ l.gsclk = .zero ∧ l.prog = .zero ∧ l.sclk = .zero ∧ l.blank ≠ .undef ∧ l.sdata ≠ .undef := by
  simp [Lines.idle, and_assoc]

end Sys2Proof.Machine
end

