-- ==== Sys2Proof/Tests/Slice0.lean ====
section
/-! SUPPORT. The model's own tests. Expected results come from the spec: the worked words of R93, the vectors of
95_test_vectors.md (named in each comment) and the rules. The last part holds one witness for each statement with hypotheses. -/

namespace Sys2Proof.Tests

open Sys2Proof Sys2Proof.Machine

/-! ### The ill-formed terms that WellFormed refuses: one element more than MAX_COUNT (R83) -/

theorem test_wellFormed_refuses_onoff : (Instr.encodeOnoff 0 (List.replicate 65536 true)).wellFormed = false :=
  decide_eq_false (by
    show ¬ (List.replicate 65536 _).length ≤ 65535
    rw [List.length_replicate]
    omega)

theorem test_wellFormed_refuses_gs : (Instr.encodeGs 0 (List.replicate 65536 0)).wellFormed = false :=
  decide_eq_false (by
    show ¬ (List.replicate 65536 _).length ≤ 65535
    rw [List.length_replicate]
    omega)

theorem test_wellFormed_refuses_dp : (Instr.dpOverlay 0 (List.replicate 65536 0)).wellFormed = false :=
  decide_eq_false (by
    show ¬ (List.replicate 65536 _).length ≤ 65535
    rw [List.length_replicate]
    omega)

theorem test_wellFormed_refuses_transmit : (Instr.transmit 0 (List.replicate 65536 0)).wellFormed = false :=
  decide_eq_false (by
    show ¬ (List.replicate 65536 _).length ≤ 65535
    rw [List.length_replicate]
    omega)

/-! ### Every command's word, written out from R81 as `oooo pppp pppp pppp cccc cccc cccc cccc` -/

theorem test_decode_init : decode ⟨0b0001_0000_0000_0000_0000_0000_0000_0000, []⟩ = .command (.init 0 0) := by decide

theorem test_decode_init_reserved :
    decode ⟨0b0001_0000_0000_0001_0000_0000_0000_0001, [.flag true]⟩ = .command (.init 1 1) := by decide

theorem test_decode_onoff :
    decode ⟨0b0010_0000_0000_0000_0000_0000_0000_0011, [.flag true, .flag false, .flag true]⟩
      = .command (.encodeOnoff 0 [true, false, true]) := by decide

theorem test_decode_gs :
    decode ⟨0b0011_0000_0000_0000_0000_0000_0000_0010, [.value 0x0123, .value 0x1000]⟩
      = .command (.encodeGs 0 [0x0123, 0x1000]) := by decide

theorem test_decode_dp :
    decode ⟨0b0100_0000_0000_0010_0000_0000_0000_0011, [.byte 0x0A, .byte 0x0B, .byte 0x0C]⟩
      = .command (.dpOverlay 2 [0x0A, 0x0B, 0x0C]) := by decide

theorem test_decode_transmit :
    decode ⟨0b0101_1000_0000_0000_0000_0000_0000_0001, [.byte 0x80]⟩ = .command (.transmit 0x800 [0x80]) := by decide

theorem test_decode_reserved_ops :
    decode ⟨0x00010001, [.byte 0]⟩ = .badOp ∧ decode ⟨0x60000000, []⟩ = .badOp ∧ decode ⟨0xF0000000, []⟩ = .badOp := by
  decide

theorem test_decode_not_a_command :
    decode ⟨0x50000002, [.byte 0]⟩ = .payloadLength ∧ decode ⟨0x50000001, [.flag true]⟩ = .payloadType := by decide

/-- The words of R93 for `ENCODE_ONOFF` with 17 flags and `DP_OVERLAY` at position 1 of a 48-byte frame. -/
theorem test_encode_words :
    (encode (.encodeOnoff 0 (List.replicate 17 true))).word = 0x20000011
      ∧ (encode (.dpOverlay 1 (List.replicate 48 0))).word = 0x40010030 := by decide

/-! ### Small states -/

/-- After INIT: BLANK 1, the other lines 0 (R42). -/
def idleWith (c : Config) : State :=
  { State.resetWith c with
    lines := ⟨.one, .zero, .zero, .zero, .zero, .zero, if c.nAux = 1 then .zero else .undef⟩
    pend := [] }

def idle : State := idleWith Config.default

/-- The default configuration with BLANK_ORDER = REFERENCE, and BLANK at 0 as after a TRANSMIT (R151). -/
def idleReference : State :=
  { idleWith { Config.default with blankOrder := .reference } with
    lines := ⟨.zero, .zero, .zero, .zero, .zero, .zero, .undef⟩ }

def darkFrame : Frame := List.replicate 24 0

/-- The idle state with a TRANSMIT of a dark frame presented. -/
def offered (s : State) : State := { s with inbox := [encode (.transmit 0 darkFrame)] }

/-- The state a command ends in, if it is a next state. -/
def nextOf : Host.Outcome State Fault Refusal → Option State
  | .next s => some s
  | .fault _ => none
  | .refused _ => none

/-- STATUS and the frames returned. -/
def report (r : Host.Outcome State Fault Refusal) : Option (Word32 × List Frame) :=
  (nextOf r).map fun s => (s.status, s.returned)

/-! ### The commands -/

/-- L1-4: outputs 0 and 2 on. -/
theorem test_onoff_example :
    report (exec (.encodeOnoff 0 ([true, false, true] ++ List.replicate 13 false)) idle)
      = some (0, [List.replicate 19 0 ++ [0x0F, 0xFF, 0x00, 0x0F, 0xFF]]) := by decide

/-- L1-7: 17 flags, E_SPEC_LENGTH; EO-16: E_RESERVED comes first. -/
theorem test_onoff_rejections :
    report (exec (.encodeOnoff 0 (List.replicate 17 true)) idle) = some (1, [])
      ∧ report (exec (.encodeOnoff 1 (List.replicate 17 true)) idle) = some (6, []) := by decide

/-- GS-3: the bits within a word do not reverse. -/
theorem test_gs_example :
    report (exec (.encodeGs 0 (List.replicate 14 0 ++ [0xABC, 0xDEF])) idle)
      = some (0, [[0xDE, 0xFA, 0xBC] ++ List.replicate 21 0]) := by decide

/-- GS-10: 4096 is out of range; GS-12: the length check comes first. -/
theorem test_gs_rejections :
    report (exec (.encodeGs 0 (4096 :: List.replicate 15 0)) idle) = some (2, [])
      ∧ report (exec (.encodeGs 0 (List.replicate 17 5000)) idle) = some (1, []) := by decide

/-- DP-5: byte 1 keeps its low nibble and byte 2 is untouched. -/
theorem test_dp_example :
    report (exec (.dpOverlay 0 [0x00, 0xA3, 0x45]) idle) = some (0, [[0xFF, 0xF3, 0x45]]) := by decide

/-- DP-8 and DP-9: o + 2 = M is allowed, one byte less is not. -/
theorem test_dp_bound :
    report (exec (.dpOverlay 1 (List.replicate 14 0)) idle) = some (0, [List.replicate 12 0 ++ [0xFF, 0xF0]])
      ∧ report (exec (.dpOverlay 1 (List.replicate 13 0)) idle) = some (4, []) := by decide

/-- LK-1: six events, BUSY; RJ-6 and RJ-7: E_RESERVED. -/
theorem test_init :
    (nextOf (exec (.init 0 0) idle)).map (fun s => (s.status, s.pend.length)) = some (0x10, 6)
      ∧ report (exec (.init 1 0) idle) = some (6, []) ∧ report (exec (.init 0 1) idle) = some (6, []) := by decide

/-- L1-8: events 1 to 7 of a TRANSMIT whose first byte is 0x40, and its last five. -/
theorem test_transmit_events :
    (txEvents .contract [0x40]).take 7
        = [⟨.blank, true⟩, ⟨.sdata, false⟩, ⟨.sclk, true⟩, ⟨.sclk, false⟩, ⟨.sdata, true⟩, ⟨.sclk, true⟩, ⟨.sclk, false⟩]
      ∧ (txEvents .contract [0x40]).drop 25
        = [⟨.latch, true⟩, ⟨.latch, false⟩, ⟨.blank, false⟩, ⟨.gsclk, true⟩, ⟨.gsclk, false⟩]
      ∧ (txEvents .reference [0x40]).drop 24
        = [⟨.blank, true⟩, ⟨.latch, true⟩, ⟨.latch, false⟩, ⟨.blank, false⟩, ⟨.gsclk, true⟩, ⟨.gsclk, false⟩] := by decide

/-- LK-5 and LK-8: a frame of 23 bytes, and a non-zero `pos`. -/
theorem test_transmit_rejections :
    report (exec (.transmit 0 (List.replicate 23 0)) idle) = some (3, [])
      ∧ report (exec (.transmit 1 darkFrame) idle) = some (6, []) := by decide

/-- RJ-5: E_BAD_OP comes before every other rejection, and the command has been taken. -/
theorem test_bad_op_step :
    (nextOf (step { idle with inbox := [⟨0x00010001, [.byte 0]⟩] })).map (fun s => (s.status, s.inbox)) = some (5, []) := by
  decide

/-- The host's placing of a table word: the very next step after reset runs it (TRANSMIT of no bytes: LK-7). -/
theorem test_withFetchWord :
    report (step (State.reset.withFetchWord 32 0x50000000)) = some (3, [])
      ∧ report (step (State.reset.withFetchWord 32 0x20000000)) = some (0, [[]]) := by decide

/-- R190: a command presented while INIT's events are pending is held. -/
theorem test_command_is_held :
    (nextOf (step { State.reset with inbox := [⟨0x10000000, []⟩] })).map (fun s => (s.pend.length, s.inbox.length))
      = some (5, 1) := by decide

/-! ### The chain (CH-1 to CH-6), on a chain of two cells and one register -/

def tinyChain : Chain := ⟨[.one, .zero], [.value 3], [.value 7], false⟩

def quietLines : Lines := ⟨.one, .zero, .zero, .zero, .zero, .one, .undef⟩

theorem test_sclk_shifts : tinyChain.react quietLines ⟨.sclk, true⟩ = ⟨[.one, .one], [.value 3], [.value 7], true⟩ := by
  decide

theorem test_sclk_under_latch :
    tinyChain.react { quietLines with latch := .one } ⟨.sclk, true⟩ = ⟨[.undef, .undef], [.undef], [.undef], true⟩ := by decide

theorem test_latch_under_prog :
    tinyChain.react { quietLines with prog := .one } ⟨.latch, true⟩ = ⟨[.undef, .undef], [.undef], [.undef], false⟩ := by
  decide

/-- CH-4 with one word: 0x123, least significant bit at t = 0 (LK-10). -/
theorem test_chain_word :
    chainWord [.one, .one, .zero, .zero, .zero, .one, .zero, .zero, .one, .zero, .zero, .zero] 0 = .value 0x123
      ∧ chainWord [.one, .one, .zero, .zero, .zero, .one, .undef, .zero, .one, .zero, .zero, .zero] 0 = .undef := by decide

theorem test_gsclk_arms : tinyChain.react quietLines ⟨.gsclk, true⟩ = { tinyChain with disp := [.value 3] } := by decide

theorem test_no_edge : tinyChain.react { quietLines with sclk := .one } ⟨.sclk, true⟩ = tinyChain := by decide

/-- CH-7: BLANK = 1 turns every output off, whatever the chain holds. -/
theorem test_blank_is_dark : { idle with chain := { idle.chain with shifting := true } }.light 0 = .off := by decide

/-! ### Witnesses: for each statement with hypotheses, values that meet them together, one for each clause -/

theorem witness_DecodeOfEncodeIsTheCommand :
    (Instr.init 1 2).wellFormed = true ∧ (Instr.encodeOnoff 1 [true]).wellFormed = true
      ∧ (Instr.encodeGs 0 [4096]).wellFormed = true ∧ (Instr.dpOverlay 4095 []).wellFormed = true
      ∧ (Instr.transmit 0 darkFrame).wellFormed = true := by decide

theorem witness_EncodeOfDecodeIsTheSameWord :
    decode ⟨0x10000001, [.value 5]⟩ = .command (.init 0 1)
      ∧ decode ⟨0x5FFF0001, [.byte 5]⟩ = .command (.transmit 4095 [5]) ∧ (opField 0x5FFF0001).toNat ≠ 1 := by decide

/-- One word for each clause: `op` 1 to 5, 0, 6 and 15. -/
theorem witness_EveryWordIsACommandOrABadOp :
    (∀ w ∈ [0x1FFF0001, 0x20000001, 0x30000001, 0x40000001, 0x50000001, 0x00000001, 0x60000001, 0xFFFF0001],
        1 = w % 65536)
      ∧ [0x1FFF0001, 0x20000001, 0x30000001, 0x40000001, 0x50000001, 0x00000001, 0x60000001, 0xFFFF0001].map
          (fun w : Nat => w / 268435456) = [1, 2, 3, 4, 5, 0, 6, 15] := by decide

theorem witness_PairsOutsideTheInterfaceAreRefused :
    (∃ s : State, ∃ c later, s.pend = [] ∧ s.inbox = c :: later ∧ s.resetNow = false
        ∧ c.payload.length ≠ c.word.toNat % 65536)
      ∧ (∀ op ∈ [2, 3], ∃ s : State, ∃ c later, s.pend = [] ∧ s.inbox = c :: later ∧ s.resetNow = false
        ∧ c.payload.length = c.word.toNat % 65536 ∧ c.word.toNat / 268435456 = op
        ∧ (∃ e ∈ c.payload, e.flag? = none ∧ e.value? = none))
      ∧ ∀ op ∈ [4, 5], ∃ s : State, ∃ c later, s.pend = [] ∧ s.inbox = c :: later ∧ s.resetNow = false
        ∧ c.payload.length = c.word.toNat % 65536 ∧ c.word.toNat / 268435456 = op
        ∧ (∃ e ∈ c.payload, e.byte? = none) := by
  refine ⟨⟨{ idle with inbox := [⟨0x20000001, []⟩] }, _, _, rfl, rfl, by decide, by decide⟩, ?_, ?_⟩
  · intro op h
    simp only [List.mem_cons, List.not_mem_nil, or_false] at h
    rcases h with rfl | rfl
    · exact ⟨{ idle with inbox := [⟨0x20000001, [.byte 0]⟩] }, _, _, rfl, rfl, by decide, by decide, by decide,
        .byte 0, by decide, by decide⟩
    · exact ⟨{ idle with inbox := [⟨0x30000001, [.byte 0]⟩] }, _, _, rfl, rfl, by decide, by decide, by decide,
        .byte 0, by decide, by decide⟩
  · intro op h
    simp only [List.mem_cons, List.not_mem_nil, or_false] at h
    rcases h with rfl | rfl
    · exact ⟨{ idle with inbox := [⟨0x40000001, [.flag true]⟩] }, _, _, rfl, rfl, by decide, by decide, by decide,
        .flag true, by decide, by decide⟩
    · exact ⟨{ idle with inbox := [⟨0x50000001, [.value 1]⟩] }, _, _, rfl, rfl, by decide, by decide, by decide,
        .value 1, by decide, by decide⟩

theorem witness_StepRunsTheDecodedCommand :
    (offered idle).pend = [] ∧ (offered idle).inbox = encode (.transmit 0 darkFrame) :: []
      ∧ (offered idle).resetNow = false ∧ decode (encode (.transmit 0 darkFrame)) = .command (.transmit 0 darkFrame) := by
  decide

theorem witness_ReservedOpIsRejected :
    ∀ n ∈ [0x00010001, 0x60000001, 0xFFFF0001], ∃ s : State, s.pend = [] ∧ s.resetNow = false
      ∧ s.inbox = ⟨BitVec.ofNat 32 n, [.byte 0]⟩ :: [] ∧ [Elem.byte 0].length = (BitVec.ofNat 32 n).toNat % 65536
      ∧ ((BitVec.ofNat 32 n).toNat / 268435456 = 0 ∨ 6 ≤ (BitVec.ofNat 32 n).toNat / 268435456) :=
  fun n h =>
    have fields : ∀ n ∈ [0x00010001, 0x60000001, 0xFFFF0001], 1 = (BitVec.ofNat 32 n).toNat % 65536
        ∧ ((BitVec.ofNat 32 n).toNat / 268435456 = 0 ∨ 6 ≤ (BitVec.ofNat 32 n).toNat / 268435456) := by decide
    ⟨{ idle with inbox := [⟨BitVec.ofNat 32 n, [.byte 0]⟩] }, rfl, rfl, rfl, fields n h⟩

/-- The last event, an earlier one, and an idle block. -/
theorem witness_ControllerStepPerformsTheHeadEvent :
    State.reset.resetNow = false ∧ State.reset.pend = ⟨.blank, true⟩ :: (initEvents Config.default).tail
      ∧ { State.reset with pend := [⟨.sdata, false⟩] }.resetNow = false
      ∧ idle.resetNow = false ∧ idle.pend = [] ∧ idle.inbox = [] := by decide

/-- A step that performs an event and one that accepts a command (both disjuncts); also for the configuration. -/
theorem witness_CommandsAreTakenInOrderAndOnlyWhenIdle :
    (∃ t, step State.reset = .next t) ∧ ∃ t, step { idle with inbox := [encode (.encodeOnoff 0 [])] } = .next t :=
  ⟨⟨_, rfl⟩, ⟨_, rfl⟩⟩

theorem witness_ConfigurationNeverChanges :
    (∃ t, step { State.reset with resetIn := [true] } = .next t) ∧ ∃ t, step (offered idle) = .next t :=
  ⟨⟨_, rfl⟩, ⟨_, rfl⟩⟩

/-- CODE changes at a last event, and at a rejection. -/
theorem witness_CodeChangesOnlyWhenACommandEnds :
    (∃ t, step { idle with pend := [⟨.gsclk, false⟩], code := .frameLength } = .next t ∧ t.code ≠ .frameLength)
      ∧ ∃ t, step { idle with inbox := [⟨0, []⟩] } = .next t ∧ t.code ≠ idle.code :=
  ⟨⟨_, rfl, by decide⟩, ⟨_, rfl, by decide⟩⟩

theorem witness_RejectionChangesOnlyTheCode :
    ∃ s t : State, s.pend = [] ∧ s.inbox = encode (.transmit 0 []) :: [] ∧ s.resetNow = false ∧ step s = .next t
      ∧ t.pend = [] ∧ t.code ≠ .ok :=
  ⟨{ idle with inbox := [encode (.transmit 0 [])] }, _, rfl, rfl, rfl, rfl, by decide, by decide⟩

theorem witness_ResetInputRestartsTheBlock : { idle with resetIn := [true] }.resetNow = true := by decide

/-- With and without the line AUX. -/
theorem witness_InitDrivesTheIdleLevels :
    ∀ c ∈ [Config.default, { Config.default with nAux := 1 }], (State.resetWith c).pend = initEvents (State.resetWith c).config
      ∧ (State.resetWith c).resetQuiet (initEvents (State.resetWith c).config).length := by decide

theorem witness_InitQueuesItsEvents : (1 : BitVec 12) ≠ 0 ∧ (1 : BitVec 16) ≠ 0 := by decide

/-- The three clauses: a non-zero `pos`; 17 flags; 0 and 16 flags. -/
theorem witness_EncodeOnoffFollowsItsPseudocode :
    (1 : BitVec 12) ≠ 0 ∧ (List.replicate 17 true).length % 16 ≠ 0 ∧ (List.replicate 16 true).length % 16 = 0
      ∧ ([] : List Bool).length % 16 = 0 := by decide

/-- The four clauses, the values 4096 and 4095 among them. -/
theorem witness_EncodeGsFollowsItsPseudocode :
    (∃ v, v ∈ (4096 : Value16) :: List.replicate 15 0 ∧ 4095 < v.toNat)
      ∧ ((4096 : Value16) :: List.replicate 15 0).length % 16 = 0
      ∧ (∀ v ∈ List.replicate 16 (4095 : Value16), v.toNat ≤ 4095) ∧ (List.replicate 16 (4095 : Value16)).length % 16 = 0
      ∧ (List.replicate 17 (0 : Value16)).length % 16 ≠ 0 ∧ (1 : BitVec 12) ≠ 0 := by
  refine ⟨⟨4096, by simp, by decide⟩, by decide, ?_, by decide, by decide, by decide⟩
  intro v hv
  rw [List.eq_of_mem_replicate hv]
  decide

/-- The bound from both sides (DP-8, DP-9). -/
theorem witness_DpOverlayChangesExactlyTwoBytes :
    (1 : BitVec 12).toNat * idle.config.dpStride + 2 > (List.replicate 13 (0 : Byte)).length
      ∧ (1 : BitVec 12).toNat * idle.config.dpStride + 2 ≤ (List.replicate 14 (0 : Byte)).length
      ∧ (List.replicate 14 (0 : Byte))[(1 : BitVec 12).toNat * idle.config.dpStride + 1]? = some 0 := by decide

theorem witness_DpOverlayIsIdempotent : 0 + 2 ≤ ([0, 0] : Frame).length := by decide

theorem witness_AdditionAgreesWithOrOnlyOnClearBytes :
    ([0x00, 0x0F] : Frame)[0]? = some 0x00 ∧ ([0x00, 0x0F] : Frame)[0 + 1]? = some 0x0F := by decide

theorem witness_OverlayLightsStreamWordEightPos : 12 * 1 + 2 ≤ darkFrame.length ∧ 7 ≠ 8 * 1 := by decide

theorem witness_OverlayIsEncodingWithTheOutputOn :
    (List.replicate 16 false).length % 16 = 0 ∧ 8 * 1 < (List.replicate 16 false).length := by decide +kernel

theorem witness_FrameLengthLaw : (List.replicate 32 true).length = 16 * 2 := by decide

theorem witness_StreamAndPackAreInverse :
    7 < 8 * ([0x12] : Frame).length ∧ (List.replicate 8 true).length % 8 = 0 := by decide

theorem witness_OutputIsItsStreamWord :
    (List.replicate 16 (5 : Word12)).length % 16 = 0 ∧ 15 < (List.replicate 16 (5 : Word12)).length
      ∧ (List.replicate 16 true).length % 16 = 0 ∧ (List.replicate 16 true)[15]? = some true := by decide

theorem witness_StreamWordPairsLieInThreeBytes :
    ([1, 2, 3] : Frame)[3 * 0]? = some 1 ∧ ([1, 2, 3] : Frame)[3 * 0 + 1]? = some 2
      ∧ ([1, 2, 3] : Frame)[3 * 0 + 2]? = some 3 := by decide

/-- The nearest and the farthest of two chips. -/
theorem witness_EachChipHasItsOwn24Bytes :
    (List.replicate 32 (9 : Word12)).length = 16 * 2 ∧ (List.replicate 32 true).length = 16 * 2 ∧ 0 < 2 ∧ 1 < 2 := by decide

theorem witness_EveryFrameIsOneEncoding : darkFrame.length = 24 * 1 := by decide

theorem witness_EncodingReversesConcatenation :
    (List.replicate 16 true).length % 16 = 0 ∧ (List.replicate 32 true).length % 16 = 0
      ∧ (List.replicate 16 (9 : Word12)).length % 16 = 0 ∧ ([] : List Word12).length % 16 = 0 := by decide

theorem witness_EncodingReversesReversal :
    (List.replicate 16 (9 : Word12)).length % 16 = 0 ∧ 0 < (List.replicate 16 (9 : Word12)).length
      ∧ (List.replicate 16 true).length % 16 = 0 := by decide

theorem witness_TransmitRejectsBeforeAnyEvent :
    (1 : BitVec 12) ≠ 0 ∧ (List.replicate 23 (0 : Byte)).length ≠ 24 * idle.config.n := by decide

/-- Both orders. -/
theorem witness_TransmitQueuesTheProtocol :
    darkFrame.length = 24 * idle.config.n ∧ idle.config.blankOrder = .contract
      ∧ darkFrame.length = 24 * idleReference.config.n ∧ idleReference.config.blankOrder = .reference := by decide

theorem witness_TransmitEventCounts : darkFrame.length = 24 * 1 := by decide

/-- Shared by the statements about a whole TRANSMIT: one chip, CONTRACT. -/
theorem witness_TransmitRunsToCompletion :
    (offered idle).pend = [] ∧ (offered idle).inbox = encode (.transmit 0 darkFrame) :: []
      ∧ decode (encode (.transmit 0 darkFrame)) = .command (.transmit 0 darkFrame)
      ∧ darkFrame.length = 24 * (offered idle).config.n ∧ (offered idle).resetQuiet (576 * (offered idle).config.n + 7) := by
  decide +kernel

/-- CONTRACT, REFERENCE, and a block with the line AUX. -/
theorem witness_CompletedTransmitLeavesTheFrame :
    (∀ s ∈ [offered idle, offered idleReference, offered (idleWith { Config.default with nAux := 1 })],
      s.Inv ∧ s.pend = [] ∧ s.inbox = encode (.transmit 0 darkFrame) :: []
        ∧ decode (encode (.transmit 0 darkFrame)) = .command (.transmit 0 darkFrame)
        ∧ (List.replicate 16 (0 : Word12)).length = 16 * s.config.n ∧ greyFrame (List.replicate 16 0) = darkFrame
        ∧ s.resetQuiet (576 * s.config.n + 7))
      ∧ (offered (idleWith { Config.default with nAux := 1 })).config.nAux = 1 := by
  decide +kernel

/-- k = 1, and the boundaries of the three phases: 579, 580, 581 and 582 for one chip. -/
theorem witness_LightDuringAContractTransmit :
    (offered idle).Inv ∧ (offered idle).config.blankOrder = .contract ∧ (offered idle).pend = []
      ∧ (offered idle).inbox = encode (.transmit 0 darkFrame) :: []
      ∧ decode (encode (.transmit 0 darkFrame)) = .command (.transmit 0 darkFrame)
      ∧ (List.replicate 16 (0 : Word12)).length = 16 * (offered idle).config.n
      ∧ greyFrame (List.replicate 16 0) = darkFrame
      ∧ ∀ k ∈ [1, 579, 580, 581, 582], 1 ≤ k ∧ k ≤ 576 * (offered idle).config.n + 6 ∧ (offered idle).resetQuiet (k + 1) := by
  decide +kernel

theorem witness_GlitchWindowInTheReferenceOrder :
    (offered idleReference).Inv ∧ (offered idleReference).config.blankOrder = .reference
      ∧ (offered idleReference).lines.blank = .zero ∧ (offered idleReference).pend = []
      ∧ (offered idleReference).inbox = encode (.transmit 0 darkFrame) :: []
      ∧ decode (encode (.transmit 0 darkFrame)) = .command (.transmit 0 darkFrame)
      ∧ darkFrame.length = 24 * (offered idleReference).config.n
      ∧ ∀ k ∈ [2, 576, 577], 2 ≤ k ∧ k ≤ 576 * (offered idleReference).config.n + 1
          ∧ (offered idleReference).resetQuiet (k + 1) := by
  decide +kernel

/-- Both orders; m = 0, in the middle, and the whole frame. -/
theorem witness_PartialShiftMixesOldAndNew :
    (∀ s ∈ [offered idle, offered idleReference], s.Inv ∧ s.pend = [] ∧ s.inbox = encode (.transmit 0 darkFrame) :: []
        ∧ decode (encode (.transmit 0 darkFrame)) = .command (.transmit 0 darkFrame) ∧ darkFrame.length = 24 * s.config.n
        ∧ ∀ m ∈ [0, 100, 192], m ≤ 192 * s.config.n ∧ s.resetQuiet (3 * m + 2) ∧ s.resetQuiet (3 * m + 1))
      ∧ (offered idle).config.blankOrder = .contract ∧ (offered idleReference).config.blankOrder = .reference := by
  decide +kernel

theorem witness_ShowLightsExactlyTheOutputsThatAreOn :
    ∃ s : State, s.Inv ∧ s.pend = [] ∧ (List.replicate 16 true).length = 16 * s.config.n
      ∧ s.inbox = showCommands (List.replicate 16 true) ++ [] ∧ s.resetQuiet (576 * s.config.n + 8) :=
  ⟨{ idle with inbox := showCommands (List.replicate 16 true) ++ [] }, by decide +kernel, rfl, by decide +kernel, rfl, by decide +kernel⟩

theorem witness_InvariantHoldsAfterReset :
    Config.default.legal ∧ { Config.default with n := 2730, nAux := 1 }.legal := by decide

/-- A latch pulse between two bits, and one that does not fall at once, break R149 and R241. -/
theorem test_latch_pulse_rules :
    latchAfterShift (shiftBit true ++ latchAndShow) = true
      ∧ latchAfterShift ([⟨.latch, true⟩, ⟨.latch, false⟩] ++ shiftBit true) = false
      ∧ latchAfterShift [⟨.latch, true⟩, ⟨.blank, false⟩, ⟨.latch, false⟩] = false := by decide

theorem witness_EveryStepKeepsTheInvariant : (offered idle).Inv ∧ ∃ t, step (offered idle) = .next t :=
  ⟨by decide +kernel, _, rfl⟩

theorem witness_ContractOrderKeepsTheGlitchWindowClosed :
    (offered idle).Inv ∧ (offered idle).config.blankOrder = .contract ∧ (offered idle).glitchFree
      ∧ ∃ t, step (offered idle) = .next t :=
  ⟨by decide +kernel, by decide +kernel, by decide +kernel, _, rfl⟩

theorem witness_ProgIsNeverAsserted :
    State.reset.lines.prog ≠ .one ∧ (⟨.prog, true⟩ : Event) ∉ State.reset.pend ∧ ∃ t, step State.reset = .next t :=
  ⟨by decide, by decide, _, rfl⟩

/-- A chain that holds values everywhere, and an event that latches it. -/
theorem witness_TheBlockNeverUndefinesTheChain :
    ∃ s t : State, s.Inv ∧ s.chain.defined ∧ step s = .next t :=
  ⟨{ idle with
      chain := ⟨List.replicate 192 .one, List.replicate 16 (.value 0), List.replicate 16 (.value 0), true⟩
      pend := latchAndShow }, _, by decide +kernel, by decide +kernel, rfl⟩

/-- The clauses of the three edges: LATCH and PROG at 0, LATCH at 1, PROG at 1. -/
theorem witness_SclkEdgeShiftsTheChain :
    quietLines.sclk ≠ .one ∧ quietLines.latch = .zero ∧ quietLines.prog = .zero ∧ 0 + 1 < tinyChain.sr.length
      ∧ { quietLines with latch := .one }.sclk ≠ .one ∧ { quietLines with prog := .one }.sclk ≠ .one := by decide

/-- A word that is defined, and one with a ⊥ cell, in a chain of one word. -/
theorem witness_LatchEdgeCopiesEveryChainWord :
    quietLines.latch ≠ .one ∧ quietLines.prog = .zero
      ∧ (∀ t < 12, (List.replicate 12 Level.one)[12 * 0 + t]? = some (Level.ofBool ((4095 : Word12).getLsbD t)))
      ∧ (∃ t < 12, (List.replicate 12 Level.undef)[12 * 0 + t]? = some .undef) ∧ 0 < [Grey.undef].length
      ∧ { quietLines with prog := .one }.latch ≠ .one := by decide

theorem witness_GsclkEdgeArmsTheActiveValues : quietLines.gsclk ≠ .one := by decide

theorem witness_OtherEventsChangeNoChainRegister :
    Line.blank ≠ .sclk ∧ Line.blank ≠ .latch ∧ Line.blank ≠ .gsclk
      ∧ quietLines.edge ⟨.sclk, false⟩ = .none ∧ { quietLines with sclk := .one }.edge ⟨.sclk, true⟩ = .none
      ∧ Lines.undriven.edge ⟨.latch, false⟩ = .none := by decide

/-- BLANK 0, and one register for each case of R208. -/
def showing : State :=
  { idleReference with chain := ⟨[], [], [.value 0, .value 4095, .undef, .value 1, .value 4094], false⟩ }

/-- BLANK 0 in the middle of a shift (R209). -/
def glitching : State := { idleReference with chain := { idleReference.chain with shifting := true } }

/-- One state or register for each case of the table, and what they show. -/
theorem witness_LightFollowsTheTable :
    idle.lines.blank = .one ∧ State.reset.lines.blank = .undef
      ∧ glitching.lines.blank = .zero ∧ glitching.chain.shifting = true
      ∧ showing.lines.blank = .zero ∧ showing.chain.shifting = false
      ∧ showing.chain.disp[0]? = some (.value 0) ∧ showing.chain.disp[1]? = some (.value 4095)
      ∧ showing.chain.disp[2]? = some .undef
      ∧ showing.chain.disp[3]? = some (.value 1) ∧ 1 ≤ (1 : Word12).toNat
      ∧ showing.chain.disp[4]? = some (.value 4094) ∧ (4094 : Word12).toNat ≤ 4094 := by decide

theorem test_light_table :
    (List.range 6).map showing.light = [.off, .full, .any, .on, .on, .any] ∧ glitching.light 0 = .any := by decide

end Sys2Proof.Tests
end

