-- ==== Sys2Proof/Proofs/State.lean ====
section
/-! SUPPORT. The status register's BUSY bit (R29, R30), and the line PROG, which LINK never asserts (R25). -/

namespace Sys2Proof.Machine

/-- Bit 4 of STATUS is BUSY: it lies just above the four bits of CODE (R29). -/
@[simp] theorem State.status_getLsbD_four (s : State) : s.status.getLsbD 4 = s.busy := by
  simp only [State.status, BitVec.getLsbD_append]
  simp

/-- Driving a line leaves PROG off 1, unless the event is the one that asserts it (R140). -/
theorem Lines.drive_prog_ne_one (l : Lines) (e : Event) (hl : l.prog ≠ .one) (he : e ≠ ⟨.prog, true⟩) :
    (l.drive e).prog ≠ .one := by
  by_cases hline : e.line = .prog
  · obtain ⟨line, level⟩ := e
    subst hline
    cases level with
    | true => exact absurd rfl he
    | false =>
      show Level.zero ≠ .one
      decide
  · have hother : (l.drive e).prog = l.prog := l.drive_get_other e .prog (Ne.symm hline)
    rwa [hother]

/-- INIT drives PROG to 0 (R143). -/
theorem deassertProg_mem_initEvents (c : Config) : (⟨.prog, false⟩ : Event) ∈ initEvents c :=
  List.mem_append_left _ (by decide)

/-- INIT does not assert PROG, with AUX or without it (R143). -/
theorem assertProg_not_mem_initEvents (c : Config) : (⟨.prog, true⟩ : Event) ∉ initEvents c := by
  unfold initEvents
  split <;> decide

/-- The shift does not assert PROG (R147). -/
theorem assertProg_not_mem_shiftFrame (f : Frame) : (⟨.prog, true⟩ : Event) ∉ shiftFrame f := fun h => by
  rcases shiftFrame_line f _ h with hline | hline <;> cases hline

/-- TRANSMIT does not assert PROG, in either order (R147, R148). -/
theorem assertProg_not_mem_txEvents (o : BlankOrder) (f : Frame) : (⟨.prog, true⟩ : Event) ∉ txEvents o f := by
  cases o <;> simp [txEvents, latchAndShow, assertProg_not_mem_shiftFrame]

/-- PROG is not at 1, and no pending event drives it there (R25). -/
def State.ProgOff (s : State) : Prop := s.lines.prog ≠ .one ∧ (⟨.prog, true⟩ : Event) ∉ s.pend

/-- Reset leaves PROG undriven, with INIT pending (R42, R230). -/
theorem State.enterReset_progOff (s : State) : s.enterReset.ProgOff :=
  ⟨by simp [Lines.undriven], assertProg_not_mem_initEvents s.config⟩

/-- Performing the head of PEND keeps PROG off 1 (R141). -/
theorem State.controllerStep_progOff (s : State) (e : Event) (rest : List Event) (hp : s.pend = e :: rest)
    (hs : s.ProgOff) : (s.controllerStep e rest).ProgOff := by
  obtain ⟨hprog, hpend⟩ := hs
  rw [hp, List.mem_cons, not_or] at hpend
  exact ⟨s.lines.drive_prog_ne_one e hprog (Ne.symm hpend.1), hpend.2⟩

/-- No accepted command queues an event that asserts PROG (R26, R190). -/
theorem accept_progOff (c : Command) (s t : State) (hs : s.ProgOff) (h : accept c s = .next t) : t.ProgOff := by
  obtain ⟨hprog, hpend⟩ := hs
  rcases accept_cases c s t h with ⟨code, -, rfl⟩ | ⟨f, rfl⟩ | rfl | ⟨f, -, rfl⟩
  · exact ⟨hprog, hpend⟩
  · exact ⟨hprog, hpend⟩
  · exact ⟨hprog, assertProg_not_mem_initEvents s.config⟩
  · exact ⟨hprog, assertProg_not_mem_txEvents s.config.blankOrder f⟩

/-- Every step keeps PROG off 1 (R25). -/
theorem step_progOff (s t : State) (hs : s.ProgOff) (h : step s = .next t) : t.ProgOff := by
  rcases step_cases s t h with ⟨-, rfl⟩ | ⟨-, e, rest, hp, rfl⟩ | ⟨-, -, -, rfl⟩ | ⟨-, -, c, later, -, hacc⟩
  · exact s.tick.enterReset_progOff
  · exact s.tick.controllerStep_progOff e rest hp hs
  · exact hs
  · exact accept_progOff c { s.tick with inbox := later } t hs hacc

end Sys2Proof.Machine

namespace Sys2Proof.Proofs

open Sys2Proof.Machine

/-- Settles O13: bit 4 of STATUS is BUSY, and BUSY is the non-emptiness of PEND. -/
theorem busyBitIsPendNotEmpty : Obligations.BusyBitIsPendNotEmpty := fun s => by
  rw [s.status_getLsbD_four, s.busy_iff]

/-- Settles O48, by the invariant `State.ProgOff`, which every step keeps. -/
theorem progIsNeverAsserted : Obligations.ProgIsNeverAsserted :=
  ⟨fun c => ⟨deassertProg_mem_initEvents c, assertProg_not_mem_initEvents c⟩,
    fun s t hprog hpend h => step_progOff s t ⟨hprog, hpend⟩ h⟩

end Sys2Proof.Proofs
end

