-- ==== Sys2Proof/Proofs/Encoder.lean ====
section
/-! SUPPORT. The length of an encoded Output Specification (R115). -/

namespace Sys2Proof.Proofs

open Sys2Proof.Machine

/-- Settles O26: 16 × k flags give 12 × 16 × k bits, which pack into 24 × k bytes. -/
theorem frameLengthLaw : Obligations.FrameLengthLaw := fun S k hS => by
  have hbits : (S.reverse.flatMap fun f => List.replicate 12 f).length = 8 * (24 * k) := by
    rw [onoffBits_length, hS]
    omega
  exact pack8_length (24 * k) _ hbits

end Sys2Proof.Proofs
end

