-- ==== Sys2Proof/Proofs/ChipLink.lean ====
section
/-! SUPPORT. The step with its reset input de-asserted, by the state of PEND (R141). -/

namespace Sys2Proof.Machine

/-- With the reset input de-asserted the step is a step of the block (R231). -/
theorem step_of_resetNow_false (s : State) (h : s.resetNow = false) : step s = runBlock s.tick := by
  simp [step, h]

/-- With an event pending the block performs it, whatever the host presents (R141, R190). -/
theorem runBlock_of_pending (s : State) (e : Event) (rest : List Event) (h : s.pend = e :: rest) :
    runBlock s = .next (s.controllerStep e rest) := by
  simp [runBlock, h]

/-- With no event pending and no command presented the block waits (R141). -/
theorem runBlock_of_waiting (s : State) (hp : s.pend = []) (hi : s.inbox = []) : runBlock s = .next s := by
  simp [runBlock, hp, hi]

/-- The controller step with each field of the next state written out (R141). -/
theorem State.controllerStep_eq (s : State) (e : Event) (rest : List Event) :
    s.controllerStep e rest = { s with
      lines := s.lines.drive e
      chain := s.chain.react s.lines e
      pend := rest
      code := if rest = [] then .ok else s.code } := by
  rw [← codeAfter_eq]
  rfl

end Sys2Proof.Machine

namespace Sys2Proof.Proofs

open Sys2Proof.Machine

/-- Settles O8: the block performs the head of PEND, or waits when PEND is empty and no command is presented. -/
theorem controllerStepPerformsTheHeadEvent : Obligations.ControllerStepPerformsTheHeadEvent := fun s hreset => by
  rw [step_of_resetNow_false s hreset]
  constructor
  · intro e rest hp
    rw [runBlock_of_pending s.tick e rest hp, State.controllerStep_eq]
    rfl
  · intro hp hi
    exact runBlock_of_waiting s.tick hp hi

end Sys2Proof.Proofs
end

section
/-! SUPPORT. The precision of a rejection (R182), and the events that change no chain register (R201). -/

namespace Sys2Proof.Machine

/-- An idle block accepts the oldest command presented, and takes it from the host (R190). -/
theorem runBlock_of_accepting (s : State) (c : Command) (later : List Command) (hp : s.pend = [])
    (hi : s.inbox = c :: later) : runBlock s = accept c { s with inbox := later } := by
  simp [runBlock, hp, hi]

/-- A command that is over when it is accepted, with a code other than OK, has been rejected: the other outcomes return a frame
with CODE OK or leave events pending (R182). -/
theorem accept_eq_reject (c : Command) (s t : State) (h : accept c s = .next t) (hpend : t.pend = [])
    (hcode : t.code ≠ .ok) : t = s.reject t.code := by
  rcases accept_cases c s t h with ⟨code, -, rfl⟩ | ⟨f, rfl⟩ | rfl | ⟨f, -, rfl⟩
  · rfl
  · exact absurd (s.returnFrame_code f) hcode
  · exact absurd hpend (initEvents_ne_nil s.config)
  · exact absurd hpend (txEvents_ne_nil s.config.blankOrder f)

/-- The chain does not react to a line other than SCLK, LATCH and GSCLK (R201). -/
theorem Chain.react_of_other_line (c : Chain) (l : Lines) (e : Event) (hsclk : e.line ≠ .sclk) (hlatch : e.line ≠ .latch)
    (hgsclk : e.line ≠ .gsclk) : c.react l e = c := by
  rcases Chain.react_cases c l e with h | ⟨hline, -⟩ | ⟨hline, -⟩ | ⟨hline, -⟩
  · exact h
  · exact absurd hline hsclk
  · exact absurd hline hlatch
  · exact absurd hline hgsclk

end Sys2Proof.Machine

namespace Sys2Proof.Proofs

open Sys2Proof.Machine

/-- Settles O12: the step accepts the command, and of all that accepting can do only a rejection fits the outcome. -/
theorem rejectionChangesOnlyTheCode : Obligations.RejectionChangesOnlyTheCode := by
  intro s t c later hp hi hreset hstep hpend hcode
  rw [step_of_resetNow_false s hreset, runBlock_of_accepting s.tick c later hp hi] at hstep
  exact accept_eq_reject c { s.tick with inbox := later } t hstep hpend hcode

/-- Settles O53: no other line acts on the chain, only an assert edge does, and an event drives its own line alone. -/
theorem otherEventsChangeNoChainRegister : Obligations.OtherEventsChangeNoChainRegister := by
  refine ⟨fun c l line hsclk hlatch hgsclk v => ?_, fun c l e hnone => ?_, fun l d => rfl, fun l v => rfl⟩
  · exact c.react_of_other_line l ⟨line, v⟩ hsclk hlatch hgsclk
  · have hassert : l.edge e ≠ .assert := by simp [hnone]
    exact c.react_of_no_assert l e hassert

end Sys2Proof.Proofs
end

section
/-! SUPPORT. The configuration is fixed at instantiation (R232). -/

namespace Sys2Proof.Machine

/-- Accepting a command keeps the configuration, whatever the command's outcome is (R190). -/
theorem accept_config (c : Command) (s t : State) (h : accept c s = .next t) : t.config = s.config := by
  rcases accept_cases c s t h with ⟨code, -, rfl⟩ | ⟨f, rfl⟩ | rfl | ⟨f, -, rfl⟩
  · exact s.reject_config code
  · exact s.returnFrame_config f
  · exact s.begin_config (initEvents s.config)
  · exact s.begin_config (txEvents s.config.blankOrder f)

/-- Every step keeps the configuration, a reset step included (R232). -/
theorem step_config (s t : State) (h : step s = .next t) : t.config = s.config := by
  rcases step_cases s t h with ⟨-, rfl⟩ | ⟨-, e, rest, -, rfl⟩ | ⟨-, -, -, rfl⟩ | ⟨-, -, c, later, -, hacc⟩
  · exact s.tick.enterReset_config
  · exact s.tick.controllerStep_config e rest
  · exact s.tick_config
  · exact accept_config c { s.tick with inbox := later } t hacc

end Sys2Proof.Machine

namespace Sys2Proof.Proofs

open Sys2Proof.Machine

/-- Settles O10: neither reset, an event, waiting nor an accepted command touches the configuration. -/
theorem configurationNeverChanges : Obligations.ConfigurationNeverChanges := step_config

end Sys2Proof.Proofs
end

section
/-! SUPPORT. The decoder by the value of `op`, and its inverse (30_encoding.md section 2). -/

namespace Sys2Proof

/-- A payload of one type is read back as the list it was made from (R84). -/
theorem collect_map {α : Type} {read : Elem → Option α} {make : α → Elem} (h : ∀ x, read (make x) = some x)
    (xs : List α) : collect read (xs.map make) = some xs := by
  induction xs with
  | nil => rfl
  | cons x xs ih => simp [collect, h, ih]

/-- A payload that is read as a list of one type was made from that list (R84). -/
theorem eq_map_of_collect {α : Type} {read : Elem → Option α} {make : α → Elem}
    (h : ∀ e x, read e = some x → e = make x) (es : List Elem) (xs : List α) (hc : collect read es = some xs) :
    es = xs.map make := by
  induction es generalizing xs with
  | nil => simp_all [collect]
  | cons e es ih =>
    cases he : read e with
    | none => simp [collect, he] at hc
    | some x =>
      cases hes : collect read es with
      | none => simp [collect, he, hes] at hc
      | some ys =>
        obtain rfl : x :: ys = xs := by simpa [collect, he, hes] using hc
        rw [List.map_cons, ← h e x he, ← ih ys hes]

/-- One element of another type spoils the payload (R84). -/
theorem collect_eq_none {α : Type} (read : Elem → Option α) (es : List Elem) (h : ∃ e ∈ es, read e = none) :
    collect read es = none := by
  induction es with
  | nil => simp at h
  | cons e es ih =>
    rw [List.exists_mem_cons_iff] at h
    rcases h with he | hes
    · simp [collect, he]
    · simp [collect, ih hes]

theorem Elem.eq_flag (e : Elem) (b : Bool) (h : e.flag? = some b) : e = .flag b := by
  cases e <;> simp_all [Elem.flag?]

theorem Elem.eq_value (e : Elem) (v : Value16) (h : e.value? = some v) : e = .value v := by
  cases e <;> simp_all [Elem.value?]

theorem Elem.eq_byte (e : Elem) (b : Byte) (h : e.byte? = some b) : e = .byte b := by
  cases e <;> simp_all [Elem.byte?]

theorem withPayload_map {α : Type} {read : Elem → Option α} {make : α → Elem} (h : ∀ x, read (make x) = some x)
    (xs : List α) (build : List α → Instr) : withPayload read (xs.map make) build = .command (build xs) := by
  simp [withPayload, collect_map h]

theorem withPayload_eq_payloadType {α : Type} (read : Elem → Option α) (es : List Elem) (build : List α → Instr)
    (h : ∃ e ∈ es, read e = none) : withPayload read es build = .payloadType := by
  simp [withPayload, collect_eq_none read es h]

theorem withPayload_eq_command {α : Type} {read : Elem → Option α} {make : α → Elem}
    (h : ∀ e x, read e = some x → e = make x) (es : List Elem) (build : List α → Instr) (i : Instr)
    (hc : withPayload read es build = .command i) : ∃ xs, es = xs.map make ∧ i = build xs := by
  unfold withPayload at hc
  cases hes : collect read es with
  | none => simp [hes] at hc
  | some xs => exact ⟨xs, eq_map_of_collect h es xs hes, by simpa [hes] using hc.symm⟩

theorem decodeOp_one (w : Word32) (es : List Elem) (h : (opField w).toNat = 1) :
    decodeOp w es = .command (.init (posField w) (countField w)) := by simp [decodeOp, h]

theorem decodeOp_two (w : Word32) (es : List Elem) (h : (opField w).toNat = 2) :
    decodeOp w es = withPayload Elem.flag? es (.encodeOnoff (posField w)) := by simp [decodeOp, h]

theorem decodeOp_three (w : Word32) (es : List Elem) (h : (opField w).toNat = 3) :
    decodeOp w es = withPayload Elem.value? es (.encodeGs (posField w)) := by simp [decodeOp, h]

theorem decodeOp_four (w : Word32) (es : List Elem) (h : (opField w).toNat = 4) :
    decodeOp w es = withPayload Elem.byte? es (.dpOverlay (posField w)) := by simp [decodeOp, h]

theorem decodeOp_five (w : Word32) (es : List Elem) (h : (opField w).toNat = 5) :
    decodeOp w es = withPayload Elem.byte? es (.transmit (posField w)) := by simp [decodeOp, h]

/-- The reserved values of `op` (R88). -/
theorem decodeOp_reserved (w : Word32) (es : List Elem) (h : (opField w).toNat = 0 ∨ 6 ≤ (opField w).toNat) :
    decodeOp w es = .badOp := by
  unfold decodeOp
  split
  case h_6 => rfl
  all_goals omega

/-- What a word and list that decode to a command are, by the command (R82, R84). -/
theorem decodeOp_command_cases (w : Word32) (es : List Elem) (i : Instr) (h : decodeOp w es = .command i) :
    ((opField w).toNat = 1 ∧ i = .init (posField w) (countField w))
      ∨ ((opField w).toNat = 2 ∧ ∃ xs : List Bool, es = xs.map .flag ∧ i = .encodeOnoff (posField w) xs)
      ∨ ((opField w).toNat = 3 ∧ ∃ xs : List Value16, es = xs.map .value ∧ i = .encodeGs (posField w) xs)
      ∨ ((opField w).toNat = 4 ∧ ∃ xs : Frame, es = xs.map .byte ∧ i = .dpOverlay (posField w) xs)
      ∨ ((opField w).toNat = 5 ∧ ∃ xs : Frame, es = xs.map .byte ∧ i = .transmit (posField w) xs) := by
  rcases (by omega : (opField w).toNat = 1 ∨ (opField w).toNat = 2 ∨ (opField w).toNat = 3 ∨ (opField w).toNat = 4
    ∨ (opField w).toNat = 5 ∨ ((opField w).toNat = 0 ∨ 6 ≤ (opField w).toNat)) with hop | hop | hop | hop | hop | hop
  · rw [decodeOp_one w es hop, Decoded.command.injEq] at h
    exact .inl ⟨hop, h.symm⟩
  · rw [decodeOp_two w es hop] at h
    exact .inr (.inl ⟨hop, withPayload_eq_command Elem.eq_flag es _ i h⟩)
  · rw [decodeOp_three w es hop] at h
    exact .inr (.inr (.inl ⟨hop, withPayload_eq_command Elem.eq_value es _ i h⟩))
  · rw [decodeOp_four w es hop] at h
    exact .inr (.inr (.inr (.inl ⟨hop, withPayload_eq_command Elem.eq_byte es _ i h⟩)))
  · rw [decodeOp_five w es hop] at h
    exact .inr (.inr (.inr (.inr ⟨hop, withPayload_eq_command Elem.eq_byte es _ i h⟩)))
  · rw [decodeOp_reserved w es hop] at h
    cases h

theorem decode_of_length (c : Command) (h : c.payload.length = (countField c.word).toNat) :
    decode c = decodeOp c.word c.payload := if_pos h

theorem decode_of_wrong_length (c : Command) (h : c.payload.length ≠ (countField c.word).toNat) :
    decode c = .payloadLength := if_neg h

/-- A pair that decodes to a command has the list its `count` announces (R85). -/
theorem length_of_decode_command (c : Command) (i : Instr) (h : decode c = .command i) :
    c.payload.length = (countField c.word).toNat := by
  by_contra hne
  rw [decode_of_wrong_length c hne] at h
  cases h

/-- The fields as numbers (R87). -/
theorem opField_toNat (w : Word32) : (opField w).toNat = w.toNat / 268435456 := by
  rw [opField, BitVec.extractLsb'_toNat, Nat.shiftRight_eq_div_pow]
  exact Nat.mod_eq_of_lt (by omega)

theorem posField_eq (w : Word32) : posField w = BitVec.ofNat 12 (w.toNat / 65536) := by
  apply BitVec.eq_of_toNat_eq
  rw [posField, BitVec.extractLsb'_toNat, Nat.shiftRight_eq_div_pow, BitVec.toNat_ofNat]

theorem countField_eq (w : Word32) : countField w = BitVec.ofNat 16 w.toNat := by
  apply BitVec.eq_of_toNat_eq
  rw [countField, BitVec.extractLsb'_toNat, Nat.shiftRight_zero, BitVec.toNat_ofNat]

theorem countField_toNat (w : Word32) : (countField w).toNat = w.toNat % 65536 := by
  rw [countField_eq, BitVec.toNat_ofNat]

/-- A word is made of its three fields (R81). -/
theorem commandWord_fields (w : Word32) : commandWord (opField w) (posField w) (countField w).toNat = w := by
  apply BitVec.eq_of_getLsbD_eq
  intro i hi
  simp only [commandWord, opField, posField, countField, BitVec.ofNat_toNat, BitVec.setWidth_eq, BitVec.getLsbD_append,
    BitVec.getLsbD_extractLsb']
  by_cases h16 : i < 16
  · simp [h16]
  · by_cases h28 : i - 16 < 12
    · simp [h16, h28, show 16 + (i - 16) = i by omega]
    · simp [h16, h28, show i - 16 - 12 < 4 by omega, show 28 + (i - 16 - 12) = i by omega]

/-- The fields and the payload of the command that a pair decodes to are those of the pair; INIT's elements are ignored
(R85). -/
theorem fields_of_decode (c : Command) (i : Instr) (h : decode c = .command i) :
    i.op = opField c.word ∧ i.pos = posField c.word ∧ i.count = (countField c.word).toNat
      ∧ ((opField c.word).toNat ≠ 1 → i.payload = c.payload) := by
  have hlen := length_of_decode_command c i h
  rw [decode_of_length c hlen] at h
  rcases decodeOp_command_cases c.word c.payload i h with
    ⟨hop, rfl⟩ | ⟨hop, xs, hes, rfl⟩ | ⟨hop, xs, hes, rfl⟩ | ⟨hop, xs, hes, rfl⟩ | ⟨hop, xs, hes, rfl⟩
  · exact ⟨BitVec.eq_of_toNat_eq hop.symm, rfl, rfl, fun hne => absurd hop hne⟩
  all_goals
    rw [hes, List.length_map] at hlen
    exact ⟨BitVec.eq_of_toNat_eq hop.symm, rfl, hlen, fun _ => hes.symm⟩

/-- The decoder reads a well-formed command's encoding as that command (R81, R84). -/
theorem decode_encode (i : Instr) (h : i.wellFormed = true) : decode (encode i) = .command i := by
  obtain ⟨hop, hpos, hcount, hlen⟩ := Laws.WordFields.of_wellFormed i h
  rw [decode_of_length _ (hlen.trans hcount.symm)]
  have hopNat : (opField (encode i).word).toNat = i.op.toNat := by rw [hop]
  cases i with
  | init pos count =>
    rw [decodeOp_one _ _ hopNat, hpos, BitVec.eq_of_toNat_eq (y := count) hcount]
    rfl
  | encodeOnoff pos flags =>
    rw [decodeOp_two _ _ hopNat, hpos]
    exact withPayload_map (make := .flag) (fun _ => rfl) flags _
  | encodeGs pos values =>
    rw [decodeOp_three _ _ hopNat, hpos]
    exact withPayload_map (make := .value) (fun _ => rfl) values _
  | dpOverlay pos frame =>
    rw [decodeOp_four _ _ hopNat, hpos]
    exact withPayload_map (make := .byte) (fun _ => rfl) frame _
  | transmit pos frame =>
    rw [decodeOp_five _ _ hopNat, hpos]
    exact withPayload_map (make := .byte) (fun _ => rfl) frame _

end Sys2Proof

namespace Sys2Proof.Machine

theorem accept_of_command (c : Command) (i : Instr) (s : State) (h : decode c = .command i) : accept c s = exec i s := by
  simp [accept, h]

/-- An idle block with the reset input de-asserted accepts the oldest command presented (R190). -/
theorem step_of_accepting (s : State) (c : Command) (later : List Command) (hp : s.pend = []) (hi : s.inbox = c :: later)
    (hr : s.resetNow = false) : step s = accept c { s.tick with inbox := later } := by
  rw [step_of_resetNow_false s hr, runBlock_of_accepting s.tick c later hp hi]

end Sys2Proof.Machine

namespace Sys2Proof.Proofs

open Sys2Proof.Machine

/-- Settles O2: the three fields are read back, and then the payload, element by element. -/
theorem decodeOfEncodeIsTheCommand : Obligations.DecodeOfEncodeIsTheCommand := decode_encode

/-- Settles O3: the decoded command has the fields of the word and the elements of the list, and those make up the pair. -/
theorem encodeOfDecodeIsTheSameWord : Obligations.EncodeOfDecodeIsTheSameWord := by
  intro c i h
  obtain ⟨hop, hpos, hcount, hpayload⟩ := fields_of_decode c i h
  have hword : (encode i).word = c.word := by
    rw [encode, hop, hpos, hcount]
    exact commandWord_fields c.word
  refine ⟨decide_eq_true ?_, hword, fun hne => ?_⟩
  · rw [hcount]
    exact Nat.le_of_lt_succ (countField c.word).isLt
  · rw [← show Command.mk c.word c.payload = c from rfl, ← hword, ← hpayload hne]
    rfl

/-- Settles O4: the list has the announced length, so the decoder goes by `op`, which is the word divided by 2^28. -/
theorem everyWordIsACommandOrABadOp : Obligations.EveryWordIsACommandOrABadOp := by
  intro w es hlen
  rw [← countField_toNat] at hlen
  rw [decode_of_length ⟨w, es⟩ hlen, ← opField_toNat, ← posField_eq, ← countField_eq]
  refine ⟨decodeOp_one w es, ?_, ?_, ?_, ?_, decodeOp_reserved w es⟩
  · rintro hop xs rfl
    exact (decodeOp_two w _ hop).trans (withPayload_map (make := .flag) (fun _ => rfl) xs _)
  · rintro hop xs rfl
    exact (decodeOp_three w _ hop).trans (withPayload_map (make := .value) (fun _ => rfl) xs _)
  · rintro hop xs rfl
    exact (decodeOp_four w _ hop).trans (withPayload_map (make := .byte) (fun _ => rfl) xs _)
  · rintro hop xs rfl
    exact (decodeOp_five w _ hop).trans (withPayload_map (make := .byte) (fun _ => rfl) xs _)

/-- Settles O1: the decoder evaluated on seven fixed words. -/
theorem workedWordsDecodeAsTheSpecSays : Obligations.WorkedWordsDecodeAsTheSpecSays := by
  unfold Obligations.WorkedWordsDecodeAsTheSpecSays
  decide

/-- Settles O5: the length is tested before `op`, and a wrongly typed element spoils the payload of `op` 2 to 5. -/
theorem pairsOutsideTheInterfaceAreRefused : Obligations.PairsOutsideTheInterfaceAreRefused := by
  intro s c later hp hi hr
  rw [step_of_accepting s c later hp hi hr, ← countField_toNat, ← opField_toNat]
  constructor
  · intro hlen
    simp [accept, decode_of_wrong_length c hlen]
  · intro hlen htype
    have hdecode : decode c = .payloadType := by
      rw [decode_of_length c hlen]
      rcases htype with ⟨hop, he⟩ | ⟨hop, he⟩ | ⟨hop | hop, he⟩
      · rw [decodeOp_two _ _ hop, withPayload_eq_payloadType _ _ _ he]
      · rw [decodeOp_three _ _ hop, withPayload_eq_payloadType _ _ _ he]
      · rw [decodeOp_four _ _ hop, withPayload_eq_payloadType _ _ _ he]
      · rw [decodeOp_five _ _ hop, withPayload_eq_payloadType _ _ _ he]
    simp [accept, hdecode]

/-- Settles O6: an idle block accepts the oldest command, and accepting one that decodes is `exec`. -/
theorem stepRunsTheDecodedCommand : Obligations.StepRunsTheDecodedCommand := by
  intro s c later i hp hi hr hdecode
  rw [step_of_accepting s c later hp hi hr, accept_of_command c i _ hdecode]
  rfl

/-- Settles O7: a reserved `op` decodes to `badOp`, which is accepted by a rejection. -/
theorem reservedOpIsRejected : Obligations.ReservedOpIsRejected := by
  intro s c later hp hi hr hlen hop
  rw [← countField_toNat] at hlen
  rw [← opField_toNat] at hop
  have hdecode : decode c = .badOp := (decode_of_length c hlen).trans (decodeOp_reserved c.word c.payload hop)
  refine ⟨?_, rfl⟩
  rw [step_of_accepting s c later hp hi hr, accept, hdecode]
  rfl

end Sys2Proof.Proofs
end

section
/-! SUPPORT. Bit lists as numbers, the stream of a frame bit by bit, and packing as its inverse (20_memory.md section 1). -/

namespace Sys2Proof.Machine

/-- The bits of a word, most significant first: `bits8` and `bits12` for every width (R51). -/
def msbFirst {n : Nat} (v : BitVec n) : List Bool := ((List.range n).map v.getLsbD).reverse

theorem bits8_eq_msbFirst (b : Byte) : bits8 b = msbFirst b := rfl

theorem bits12_eq_msbFirst (v : Word12) : bits12 v = msbFirst v := rfl

@[simp] theorem msbFirst_length {n : Nat} (v : BitVec n) : (msbFirst v).length = n := by simp [msbFirst]

theorem getElem?_msbFirst {n : Nat} (v : BitVec n) (u : Nat) (h : u < n) :
    (msbFirst v)[u]? = some (v.getLsbD (n - 1 - u)) := by
  simp [msbFirst, h, show n - 1 - u < n by omega]

theorem bitsValue_concat (bs : List Bool) (b : Bool) : bitsValue (bs ++ [b]) = 2 * bitsValue bs + b.toNat := by
  simp [bitsValue]

/-- The last bit of the list is bit 0 of the number. -/
theorem testBit_bitsValue (bs : List Bool) (t : Nat) : (bitsValue bs).testBit t = bs.reverse.getD t false := by
  induction bs using List.reverseRecOn generalizing t with
  | nil => simp [bitsValue]
  | append_singleton bs b ih =>
    rw [bitsValue_concat, List.reverse_append]
    cases t with
    | zero => cases b <;> simp [Nat.testBit_zero]
    | succ t =>
      have hb : b.toNat < 2 := b.toNat_lt
      have hhalf : (2 * bitsValue bs + b.toNat) / 2 = bitsValue bs := by omega
      rw [Nat.testBit_succ, hhalf, ih]
      simp

theorem bitsValue_msbFirst {n : Nat} (v : BitVec n) : bitsValue (msbFirst v) = v.toNat := by
  apply Nat.eq_of_testBit_eq
  intro t
  rw [testBit_bitsValue, msbFirst, List.reverse_reverse, BitVec.testBit_toNat]
  by_cases ht : t < n
  · simp [List.getD_eq_getElem?_getD, ht]
  · simp [List.getD_eq_getElem?_getD, ht, BitVec.getLsbD_of_ge v t (by omega)]

/-- A list of n bits is the bit list of the number it is. -/
theorem msbFirst_ofNat_bitsValue (bs : List Bool) : msbFirst (BitVec.ofNat bs.length (bitsValue bs)) = bs := by
  apply List.reverse_injective
  rw [msbFirst, List.reverse_reverse]
  apply List.ext_getElem (by simp)
  intro t ht _
  have ht' : t < bs.length := by simpa using ht
  rw [List.getElem_map, List.getElem_range, BitVec.getLsbD_ofNat, testBit_bitsValue, List.getD_eq_getElem _ _ (by simpa)]
  simp [ht']

theorem ofNat_bitsValue_bits12 (v : Word12) : BitVec.ofNat 12 (bitsValue (bits12 v)) = v := by
  rw [bits12_eq_msbFirst, bitsValue_msbFirst, BitVec.ofNat_toNat, BitVec.setWidth_eq]

/-- Bit i of a list of pieces of m bits is bit i mod m of piece i div m. -/
theorem getElem?_flatMap_const {α : Type} (m : Nat) (f : α → List Bool) (hf : ∀ x, (f x).length = m) (hm : 0 < m)
    (xs : List α) (i : Nat) : (xs.flatMap f)[i]? = xs[i / m]?.bind fun x => (f x)[i % m]? := by
  induction xs generalizing i with
  | nil => simp
  | cons x xs ih =>
    rw [List.flatMap_cons, List.getElem?_append, hf]
    split
    · next h => simp [Nat.div_eq_of_lt h, Nat.mod_eq_of_lt h]
    · next h =>
      have hi : m ≤ i := Nat.le_of_not_lt h
      rw [ih, Nat.div_eq_sub_div hm hi, Nat.mod_eq_sub_mod hi, List.getElem?_cons_succ]

/-- Piece k of a list of pieces of m bits. -/
theorem take_drop_flatMap_const {α : Type} (m : Nat) (f : α → List Bool) (hf : ∀ x, (f x).length = m) (xs : List α)
    (k : Nat) (x : α) (hx : xs[k]? = some x) : ((xs.flatMap f).drop (m * k)).take m = f x := by
  induction xs generalizing k with
  | nil => simp at hx
  | cons y ys ih =>
    cases k with
    | zero =>
      obtain rfl : y = x := by simpa using hx
      simp [List.flatMap_cons, hf]
    | succ k =>
      have hdrop : ((f y) ++ ys.flatMap f).drop (m * (k + 1)) = (ys.flatMap f).drop (m * k) := by
        rw [Nat.mul_succ, Nat.add_comm, ← List.drop_drop, List.drop_left' (hf y)]
      rw [List.flatMap_cons, hdrop]
      exact ih k (by simpa using hx)

/-- Bit m of a frame's stream (R51). -/
theorem getElem?_stream (f : Frame) (m : Nat) : (stream f)[m]? = f[m / 8]?.map fun b => b.getLsbD (7 - m % 8) := by
  have hbit : ∀ b : Byte, (bits8 b)[m % 8]? = some (b.getLsbD (7 - m % 8)) := fun b => by
    rw [bits8_eq_msbFirst, getElem?_msbFirst b (m % 8) (by omega)]
  rw [stream, getElem?_flatMap_const 8 bits8 bits8_length (by omega)]
  simp only [hbit, Option.map_eq_bind, Function.comp_def]

/-- Packing the stream gives the frame back (R51). -/
@[simp] theorem pack8_stream (f : Frame) : pack8 (stream f) = f := by
  induction f with
  | nil => rfl
  | cons b f ih =>
    rw [stream_cons, bits8, pack8_eight, ih, ← bits8, bits8_eq_msbFirst, bitsValue_msbFirst, BitVec.ofNat_toNat,
      BitVec.setWidth_eq]

/-- A frame is determined by its stream. -/
theorem stream_injective (f g : Frame) (h : stream f = stream g) : f = g := by
  rw [← pack8_stream f, h, pack8_stream]

/-- Packing a whole number of bytes loses no bit (R51). -/
theorem stream_pack8 (k : Nat) (bs : List Bool) (h : bs.length = 8 * k) : stream (pack8 bs) = bs := by
  induction k generalizing bs with
  | zero => rw [List.length_eq_zero_iff.mp (by omega : bs.length = 0)]; rfl
  | succ k ih =>
    obtain ⟨b7, b6, b5, b4, b3, b2, b1, b0, h8⟩ := eight_bits_of_length (bs.take 8) (by simp; omega)
    have hbs : bs = [b7, b6, b5, b4, b3, b2, b1, b0] ++ bs.drop 8 := by rw [← h8, List.take_append_drop]
    rw [hbs, pack8_eight, stream_cons, ih (bs.drop 8) (by simp; omega), bits8_eq_msbFirst]
    congr 1
    exact msbFirst_ofNat_bitsValue [b7, b6, b5, b4, b3, b2, b1, b0]

/-- The stream of an encoded specification: 12 equal bits a flag, the last flag first (R112). -/
theorem stream_onoffFrame (flags : List Bool) (h : flags.length % 16 = 0) :
    stream (onoffFrame flags) = flags.reverse.flatMap fun f => List.replicate 12 f :=
  stream_pack8 (12 * flags.length / 8) _ (by rw [onoffBits_length]; omega)

/-- The stream of encoded values: 12 bits a value, the last value first (R116). -/
theorem stream_greyFrame (values : List Word12) (h : values.length % 16 = 0) :
    stream (greyFrame values) = values.reverse.flatMap bits12 :=
  stream_pack8 (12 * values.length / 8) _ (by rw [greyBits_length]; omega)

theorem greyFrame_length (values : List Word12) (n : Nat) (h : values.length = 16 * n) :
    (greyFrame values).length = 24 * n :=
  pack8_length (24 * n) _ (by rw [greyBits_length]; omega)

/-- Stream word k of encoded values is value k from the end (R54). -/
theorem streamWord_greyFrame (values : List Word12) (k : Nat) (v : Word12) (h : values.length % 16 = 0)
    (hv : values.reverse[k]? = some v) : streamWord (greyFrame values) k = v := by
  rw [streamWord, stream_greyFrame values h, take_drop_flatMap_const 12 bits12 bits12_length _ k v hv,
    ofNat_bitsValue_bits12]

/-- The bits of a stream word that lies in the frame are the bits of the stream there (R52). -/
theorem bits12_streamWord (f : Frame) (k : Nat) (hk : 12 * k + 12 ≤ 8 * f.length) :
    bits12 (streamWord f k) = ((stream f).drop (12 * k)).take 12 := by
  have hlen : (((stream f).drop (12 * k)).take 12).length = 12 := by
    rw [List.length_take, List.length_drop, stream_length]
    omega
  have hword := msbFirst_ofNat_bitsValue (((stream f).drop (12 * k)).take 12)
  rw [hlen] at hword
  exact hword

/-- Bit t of a stream word that lies in the frame (R52). -/
theorem getLsbD_streamWord (f : Frame) (k t : Nat) (hk : 12 * k + 12 ≤ 8 * f.length) (ht : t < 12) :
    (streamWord f k).getLsbD t = (stream f)[12 * k + (11 - t)]?.getD false := by
  have hbit : (bits12 (streamWord f k))[11 - t]? = some ((streamWord f k).getLsbD (11 - (11 - t))) :=
    getElem?_msbFirst (streamWord f k) (11 - t) (by omega)
  rw [bits12_streamWord f k hk, List.getElem?_take_of_lt (by omega), List.getElem?_drop,
    show 11 - (11 - t) = t by omega] at hbit
  rw [hbit]
  rfl

end Sys2Proof.Machine
end

section
/-! SUPPORT. The two encoders and the decimal-point overlay: their frames, and the laws of the frame (40_encoder.md). -/

namespace Sys2Proof.Machine

/-! ### The encoders -/

theorem reverse_eq_map_range {α : Type} (xs : List α) (d : α) :
    xs.reverse = (List.range xs.length).map fun k => xs.getD (xs.length - 1 - k) d := by
  apply List.ext_getElem (by simp)
  intro k hk _
  have hk' : k < xs.length := by simpa using hk
  rw [List.getElem_reverse, List.getElem_map, List.getElem_range, List.getD_eq_getElem _ _ (by omega)]

/-- The frame of an Output Specification by the spec's own index (R112). -/
theorem onoffFrame_eq_pack8 (flags : List Bool) :
    onoffFrame flags =
      pack8 ((List.range flags.length).flatMap fun k => List.replicate 12 (flags.getD (flags.length - 1 - k) false)) := by
  rw [onoffFrame, reverse_eq_map_range flags false, List.flatMap_map]

/-- The 12 bits that ENCODE_GS takes of a 16-bit element (R116). -/
theorem bits12_word12Of (v : Value16) : bits12 (word12Of v) = (List.range 12).map fun u => v.getLsbD (11 - u) := by
  have hbits : bits12 (word12Of v) = (List.range 12).map fun u => (word12Of v).getLsbD (11 - u) := rfl
  rw [hbits]
  refine List.map_congr_left fun u _ => ?_
  rw [word12Of, BitVec.getLsbD_setWidth, decide_eq_true (by omega), Bool.true_and]

/-- The frame of 16-bit elements by the spec's own index (R116). -/
theorem greyFrame_word12Of_eq_pack8 (values : List Value16) :
    greyFrame (values.map word12Of) =
      pack8 ((List.range values.length).flatMap fun k =>
        (List.range 12).map fun u => (values.getD (values.length - 1 - k) 0).getLsbD (11 - u)) := by
  rw [greyFrame, ← List.map_reverse, List.flatMap_map, reverse_eq_map_range values 0, List.flatMap_map]
  simp only [bits12_word12Of]

/-- A flag is encoded as the greyscale value 4095 or 0 (R114). -/
theorem onoffFrame_eq_greyFrame (flags : List Bool) :
    onoffFrame flags = greyFrame (flags.map fun f => if f then 4095 else 0) := by
  have hbits : ∀ f : Bool, bits12 (if f then 4095 else 0) = List.replicate 12 f := by decide
  rw [greyFrame, ← List.map_reverse, List.flatMap_map]
  simp only [hbits]
  rfl

theorem valuesInRange_iff (values : List Value16) : valuesInRange values = true ↔ ∀ v ∈ values, v.toNat ≤ 4095 := by
  simp [valuesInRange]

theorem wholeChips_eq_decide (count : Nat) : wholeChips count = decide (count % 16 = 0) := rfl

@[simp] theorem reservedPos_zero : reservedPos 0#12 = false := rfl

theorem reservedPos_of_ne (pos : BitVec 12) (h : pos ≠ 0) : reservedPos pos = true := bne_iff_ne.mpr h

/-- ENCODE_ONOFF by its operands (R112). -/
theorem exec_encodeOnoff_zero (flags : List Bool) (s : State) :
    exec (.encodeOnoff 0 flags) s =
      if flags.length % 16 = 0 then .next (s.returnFrame (onoffFrame flags)) else .next (s.reject .specLength) := by
  simp [exec, execEncodeOnoff, wholeChips_eq_decide]

theorem exec_encodeOnoff_reserved (pos : BitVec 12) (flags : List Bool) (s : State) (h : pos ≠ 0) :
    exec (.encodeOnoff pos flags) s = .next (s.reject .reserved) := by
  simp [exec, execEncodeOnoff, reservedPos_of_ne pos h]

/-- ENCODE_GS by its operands (R116, R117). -/
theorem exec_encodeGs_zero (values : List Value16) (s : State) :
    exec (.encodeGs 0 values) s =
      if values.length % 16 = 0 then
        if ∀ v ∈ values, v.toNat ≤ 4095 then .next (s.returnFrame (greyFrame (values.map word12Of)))
        else .next (s.reject .valueRange)
      else .next (s.reject .specLength) := by
  by_cases hlen : values.length % 16 = 0
  · simp [exec, execEncodeGs, wholeChips_eq_decide, hlen, valuesInRange_iff]
  · simp [exec, execEncodeGs, wholeChips_eq_decide, hlen]

theorem exec_encodeGs_reserved (pos : BitVec 12) (values : List Value16) (s : State) (h : pos ≠ 0) :
    exec (.encodeGs pos values) s = .next (s.reject .reserved) := by
  simp [exec, execEncodeGs, reservedPos_of_ne pos h]

/-! ### The overlay -/

/-- The overlay, byte by byte (R122). -/
theorem getElem?_overlayFrame (f : Frame) (o j : Nat) :
    (overlayFrame f o)[j]? = f[j]?.map fun b => if j = o then 0xFF#8 else if j = o + 1 then b ||| 0xF0#8 else b := by
  have hfull : ∀ b : Byte, b ||| 0xFF#8 = 0xFF#8 := fun b => BitVec.or_allOnes
  unfold overlayFrame frameWrite frameRead
  rw [List.getElem?_set', List.getElem?_set', List.getD_eq_getElem?_getD, List.getD_eq_getElem?_getD]
  by_cases ho : j = o
  · subst ho
    cases f[j]? <;> simp [hfull]
  · by_cases ho' : j = o + 1
    · subst ho'
      cases f[o + 1]? <;> simp
    · cases f[j]? <;> simp [ho, ho', Ne.symm ho, Ne.symm ho']

/-- The overlay sets the 12 bits from byte o on, and no other (R122). -/
theorem getElem?_stream_overlayFrame (f : Frame) (o m : Nat) :
    (stream (overlayFrame f o))[m]? =
      if 8 * o ≤ m ∧ m < 8 * o + 12 then (stream f)[m]?.map fun _ => true else (stream f)[m]? := by
  have hff : ∀ t < 8, (0xFF#8).getLsbD t = true := by decide
  have hf0 : ∀ t < 8, (0xF0#8).getLsbD t = decide (4 ≤ t) := by decide
  rw [getElem?_stream, getElem?_overlayFrame, getElem?_stream]
  cases f[m / 8]? with
  | none => simp
  | some b =>
    by_cases h0 : m / 8 = o
    · rw [if_pos (by omega)]
      simp [h0, hff (7 - m % 8) (by omega)]
    · by_cases h1 : m / 8 = o + 1
      · have hbit := hf0 (7 - m % 8) (by omega)
        by_cases hhigh : m < 8 * o + 12
        · rw [if_pos (by omega)]
          simp [h1, hbit, show 4 ≤ 7 - m % 8 by omega]
        · rw [if_neg (by omega)]
          simp [h1, hbit, show ¬ 4 ≤ 7 - m % 8 by omega]
      · rw [if_neg (by omega)]
        simp [h0, h1]

/-- The OR of 0xF0 is a sum without carry exactly on a clear high nibble (R124). -/
theorem or_highNibble_eq_add_iff :
    ∀ b : Byte, b ||| 0xF0#8 = BitVec.ofNat 8 (b.toNat + 240) ∧ b.toNat + 240 < 256 ↔ b &&& 0xF0#8 = 0 := by
  decide

/-- DP_OVERLAY by its bound (R122, R123). -/
theorem exec_dpOverlay (pos : BitVec 12) (f : Frame) (s : State) :
    exec (.dpOverlay pos f) s =
      if pos.toNat * s.config.dpStride + 2 ≤ f.length then
        .next (s.returnFrame (overlayFrame f (pos.toNat * s.config.dpStride)))
      else .next (s.reject .dpRange) :=
  if_congr decide_eq_true_iff rfl rfl

/-! ### Stream words -/

/-- A frame's chunk of 12 bits fixes its stream word (R52). -/
theorem streamWord_of_bits (f : Frame) (k : Nat) (v : Word12) (h : ((stream f).drop (12 * k)).take 12 = bits12 v) :
    streamWord f k = v := by
  rw [streamWord, h, ofNat_bitsValue_bits12]

/-- Bit t of byte j in the stream (R51). -/
theorem stream_bit_of_byte (f : Frame) (j t : Nat) (b : Byte) (hb : f[j]? = some b) (ht : t < 8) :
    (stream f)[8 * j + (7 - t)]? = some (b.getLsbD t) := by
  rw [getElem?_stream, show (8 * j + (7 - t)) / 8 = j by omega, hb, show 7 - (8 * j + (7 - t)) % 8 = t by omega]
  rfl

/-- Bit t of stream word k, where the stream has a bit of byte j in its place (R55). -/
theorem streamWord_bit_of_byte (f : Frame) (j t k u : Nat) (b : Byte) (hb : f[j]? = some b) (ht : t < 8)
    (hk : 12 * k + 12 ≤ 8 * f.length) (hu : u < 12) (hplace : 12 * k + (11 - u) = 8 * j + (7 - t)) :
    (streamWord f k).getLsbD u = b.getLsbD t := by
  rw [getLsbD_streamWord f k u hk hu, hplace, stream_bit_of_byte f j t b hb ht]
  rfl

/-- Bit m of an encoded specification is flag m div 12 from the end (R112). -/
theorem getElem?_stream_onoffFrame (flags : List Bool) (h : flags.length % 16 = 0) (m : Nat) :
    (stream (onoffFrame flags))[m]? = flags.reverse[m / 12]? := by
  have hbit : ∀ f : Bool, (List.replicate 12 f)[m % 12]? = some f := fun f =>
    List.getElem?_replicate_of_lt (by omega)
  rw [stream_onoffFrame flags h, getElem?_flatMap_const 12 _ (fun _ => List.length_replicate) (by omega)]
  simp only [hbit, Option.bind_fun_some]

/-- Changing a value changes the reversed list at the mirrored index. -/
theorem reverse_set {α : Type} (xs : List α) (j : Nat) (x : α) (h : j < xs.length) :
    (xs.set (xs.length - 1 - j) x).reverse = xs.reverse.set j x := by
  apply List.ext_getElem (by simp)
  intro k hk _
  have hk' : k < xs.length := by simpa using hk
  simp only [List.getElem_reverse, List.getElem_set, List.length_set]
  rw [if_congr (by omega : xs.length - 1 - j = xs.length - 1 - k ↔ j = k) rfl rfl]

/-! ### Concatenation and the frames of the chips -/

theorem onoffFrame_append (a b : List Bool) (hb : b.length % 16 = 0) :
    onoffFrame (a ++ b) = onoffFrame b ++ onoffFrame a := by
  rw [onoffFrame, List.reverse_append, List.flatMap_append]
  exact pack8_append (12 * b.length / 8) _ _ (by rw [onoffBits_length]; omega)

theorem greyFrame_append (a b : List Word12) (hb : b.length % 16 = 0) :
    greyFrame (a ++ b) = greyFrame b ++ greyFrame a := by
  rw [greyFrame, List.reverse_append, List.flatMap_append]
  exact pack8_append (12 * b.length / 8) _ _ (by rw [greyBits_length]; omega)

/-- An encoder that reverses concatenation and makes 24 bytes a chip puts chip c in the bytes from 24 (N - 1 - c) on
(R55). -/
theorem chipBytes {α : Type} (enc : List α → Frame)
    (happend : ∀ a b : List α, b.length % 16 = 0 → enc (a ++ b) = enc b ++ enc a)
    (hlength : ∀ (a : List α) (n : Nat), a.length = 16 * n → (enc a).length = 24 * n)
    (xs : List α) (N c : Nat) (hxs : xs.length = 16 * N) (hc : c < N) :
    ((enc xs).drop (24 * (N - 1 - c))).take 24 = enc ((xs.drop (16 * c)).take 16) := by
  have hsplit : xs = (xs.take (16 * c) ++ (xs.drop (16 * c)).take 16) ++ (xs.drop (16 * c)).drop 16 := by
    rw [List.append_assoc, List.take_append_drop, List.take_append_drop]
  have hmid : ((xs.drop (16 * c)).take 16).length = 16 * 1 := by simp; omega
  have hfar : ((xs.drop (16 * c)).drop 16).length = 16 * (N - 1 - c) := by simp; omega
  have hframe : enc xs =
      enc ((xs.drop (16 * c)).drop 16) ++ (enc ((xs.drop (16 * c)).take 16) ++ enc (xs.take (16 * c))) := by
    rw [← happend _ _ (by omega), ← happend _ _ (by omega), ← hsplit]
  rw [hframe, List.drop_left' (hlength _ _ hfar), List.take_left' (hlength _ _ hmid)]

/-- The values of a frame's 16N stream words, output index 0 first (R54). -/
def frameValues (f : Frame) (n : Nat) : List Word12 := ((List.range (16 * n)).map (streamWord f)).reverse

@[simp] theorem frameValues_length (f : Frame) (n : Nat) : (frameValues f n).length = 16 * n := by simp [frameValues]

/-- Encoding the stream words of a frame gives the frame (R116). -/
theorem greyFrame_frameValues (f : Frame) (n : Nat) (h : f.length = 24 * n) : greyFrame (frameValues f n) = f := by
  apply stream_injective
  rw [stream_greyFrame _ (by simp), frameValues, List.reverse_reverse]
  apply List.ext_getElem?
  intro m
  rw [getElem?_flatMap_const 12 bits12 bits12_length (by omega)]
  by_cases hm : m / 12 < 16 * n
  · rw [List.getElem?_map, List.getElem?_range hm, Option.map_some, Option.bind_some, bits12_streamWord f _ (by omega),
      List.getElem?_take_of_lt (by omega), List.getElem?_drop, Nat.div_add_mod]
  · rw [List.getElem?_eq_none (by simp; omega), List.getElem?_eq_none (by rw [stream_length]; omega)]
    rfl

/-- Only the stream words of a frame are encoded by it (R54). -/
theorem frameValues_greyFrame (values : List Word12) (n : Nat) (h : values.length = 16 * n) :
    frameValues (greyFrame values) n = values := by
  apply List.reverse_injective
  rw [frameValues, List.reverse_reverse]
  apply List.ext_getElem (by simp [h])
  intro k hk hk'
  rw [List.getElem_map, List.getElem_range]
  exact streamWord_greyFrame values k _ (by omega) (List.getElem?_eq_getElem hk')

end Sys2Proof.Machine

namespace Sys2Proof.Proofs

open Sys2Proof.Machine

/-- Settles O19: the command by its operands, and the frame by the spec's index. -/
theorem encodeOnoffFollowsItsPseudocode : Obligations.EncodeOnoffFollowsItsPseudocode := by
  intro pos S s
  refine ⟨fun hpos => exec_encodeOnoff_reserved pos S s hpos, ?_, ?_⟩
  · rintro rfl hlen
    rw [exec_encodeOnoff_zero, if_neg hlen]
    rfl
  · rintro rfl hlen
    refine ⟨_, rfl, ?_, ?_⟩
    · rw [← onoffFrame_eq_pack8, frameLengthLaw S (S.length / 16) (by omega)]
      omega
    · rw [← onoffFrame_eq_pack8, exec_encodeOnoff_zero, if_pos hlen]
      rfl

/-- Settles O20: the command by its operands, and the frame by the spec's index. -/
theorem encodeGsFollowsItsPseudocode : Obligations.EncodeGsFollowsItsPseudocode := by
  intro pos V s
  refine ⟨fun hpos => exec_encodeGs_reserved pos V s hpos, ?_, ?_, ?_⟩
  · rintro rfl hlen
    rw [exec_encodeGs_zero, if_neg hlen]
    rfl
  · rintro rfl hlen ⟨v, hv, hbig⟩
    have hrange : ¬ ∀ v ∈ V, v.toNat ≤ 4095 := fun hall => absurd (hall v hv) (Nat.not_le_of_lt hbig)
    rw [exec_encodeGs_zero, if_pos hlen, if_neg hrange]
    rfl
  · rintro rfl hlen hrange
    refine ⟨_, rfl, ?_, ?_⟩
    · rw [← greyFrame_word12Of_eq_pack8, greyFrame_length _ (V.length / 16) (by rw [List.length_map]; omega)]
      omega
    · rw [← greyFrame_word12Of_eq_pack8, exec_encodeGs_zero, if_pos hlen, if_pos hrange]
      rfl

/-- Settles O21: the bound, and the overlay byte by byte. -/
theorem dpOverlayChangesExactlyTwoBytes : Obligations.DpOverlayChangesExactlyTwoBytes := by
  intro pos F s
  rw [exec_dpOverlay]
  constructor
  · intro hbound
    rw [if_neg (Nat.not_le_of_gt hbound)]
    rfl
  · intro hbound
    refine ⟨overlayFrame F (pos.toNat * s.config.dpStride), ?_, overlayFrame_length _ _, ?_, ?_, ?_⟩
    · rw [if_pos hbound]
      rfl
    · rw [getElem?_overlayFrame, List.getElem?_eq_getElem (by omega)]
      simp
    · intro b hb
      rw [getElem?_overlayFrame, hb]
      simp
    · intro j hj hj'
      rw [getElem?_overlayFrame]
      simp [hj, hj']

/-- Settles O22: byte by byte, and ORing 0xF0 twice is ORing it once. -/
theorem dpOverlayIsIdempotent : Obligations.DpOverlayIsIdempotent := by
  intro F o _
  apply List.ext_getElem?
  intro j
  rw [getElem?_overlayFrame (overlayFrame F o), getElem?_overlayFrame F, Option.map_map]
  congr 1
  funext b
  by_cases ho : j = o
  · simp [ho]
  · by_cases ho' : j = o + 1
    · simp [ho', BitVec.or_assoc]
    · simp [ho, ho']

/-- Settles O23: byte by byte. -/
theorem additionAgreesWithOrOnlyOnClearBytes : Obligations.AdditionAgreesWithOrOnlyOnClearBytes := by
  intro F o a b ha hb
  have hfirst : 0xFF#8 = BitVec.ofNat 8 (a.toNat + 255) ∧ a.toNat + 255 < 256 ↔ a = 0 := by
    constructor
    · rintro ⟨-, hcarry⟩
      exact BitVec.eq_of_toNat_eq (by simp; omega)
    · rintro rfl
      decide
  rw [getElem?_overlayFrame, getElem?_overlayFrame, ha, hb, ← or_highNibble_eq_add_iff b, ← hfirst, ← and_assoc]
  simp

/-- Settles O24: the overlay sets the 12 bits from bit 96 pos on, which are stream word 8 pos. -/
theorem overlayLightsStreamWordEightPos : Obligations.OverlayLightsStreamWordEightPos := by
  intro F pos hpos
  constructor
  · apply streamWord_of_bits
    have hones : bits12 4095 = List.replicate 12 true := by decide
    rw [hones]
    apply List.ext_getElem?
    intro i
    by_cases hi : i < 12
    · have hin : 12 * (8 * pos) + i < (stream F).length := by
        rw [stream_length]
        omega
      rw [List.getElem?_take_of_lt hi, List.getElem?_drop, getElem?_stream_overlayFrame, if_pos (by omega),
        List.getElem?_eq_getElem hin, List.getElem?_replicate_of_lt hi]
      rfl
    · rw [List.getElem?_eq_none (by simp; omega), List.getElem?_eq_none (by simp; omega)]
  · intro k hk
    unfold streamWord
    congr 2
    apply List.ext_getElem?
    intro i
    by_cases hi : i < 12
    · rw [List.getElem?_take_of_lt hi, List.getElem?_take_of_lt hi, List.getElem?_drop, List.getElem?_drop,
        getElem?_stream_overlayFrame, if_neg (by omega)]
    · rw [List.getElem?_eq_none (by simp; omega), List.getElem?_eq_none (by simp; omega)]

/-- Settles O25: the two frames have the same stream, bit by bit. -/
theorem overlayIsEncodingWithTheOutputOn : Obligations.OverlayIsEncodingWithTheOutputOn := by
  intro S pos hlen hpos
  apply stream_injective
  apply List.ext_getElem?
  intro m
  rw [getElem?_stream_overlayFrame, getElem?_stream_onoffFrame S hlen, getElem?_stream_onoffFrame _ (by simpa using hlen),
    reverse_set S (8 * pos) true hpos, List.getElem?_set']
  exact if_congr (by omega) rfl rfl

/-- Settles O27: the stream bit by bit, and the two inverses. -/
theorem streamAndPackAreInverse : Obligations.StreamAndPackAreInverse :=
  ⟨fun F => ⟨stream_length F, pack8_stream F, fun m _ => getElem?_stream F m⟩,
    fun b hb => stream_pack8 (b.length / 8) b (by omega)⟩

/-- Settles O28: stream word L - 1 - i is entry L - 1 - i of the reversed list, which is output i. -/
theorem outputIsItsStreamWord : Obligations.OutputIsItsStreamWord := by
  constructor
  · intro V i hlen hi
    have hv : V.reverse[V.length - 1 - i]? = some V[i] := by
      rw [List.getElem?_reverse' (j := i) (by omega), List.getElem?_eq_getElem hi]
    rw [streamWord_greyFrame V _ V[i] hlen hv, List.getElem?_eq_getElem hi]
  · intro S i f hlen hf
    obtain ⟨hi, -⟩ := List.getElem?_eq_some_iff.mp hf
    rw [stream_onoffFrame S hlen]
    refine take_drop_flatMap_const 12 _ (fun _ => List.length_replicate) S.reverse _ f ?_
    rwa [List.getElem?_reverse' (j := i) (by omega)]

/-- Settles O29: bit by bit, each bit of a byte being a bit of a stream word by its place in the stream. -/
theorem streamWordPairsLieInThreeBytes : Obligations.StreamWordPairsLieInThreeBytes := by
  intro F p b0 b1 b2 h0 h1 h2
  obtain ⟨hlen, -⟩ := List.getElem?_eq_some_iff.mp h2
  refine ⟨BitVec.eq_of_getLsbD_eq fun t ht => ?_, BitVec.eq_of_getLsbD_eq fun t ht => ?_,
    BitVec.eq_of_getLsbD_eq fun t ht => ?_⟩
  · rw [BitVec.getLsbD_extractLsb', streamWord_bit_of_byte F _ t (2 * p) (4 + t) b0 h0 ht (by omega) (by omega) (by omega)]
    simp [ht]
  · rw [BitVec.getLsbD_append, BitVec.getLsbD_extractLsb', BitVec.getLsbD_extractLsb']
    by_cases hlow : t < 4
    · rw [streamWord_bit_of_byte F _ t (2 * p + 1) (8 + t) b1 h1 ht (by omega) (by omega) (by omega)]
      simp [hlow]
    · rw [streamWord_bit_of_byte F _ t (2 * p) (0 + (t - 4)) b1 h1 ht (by omega) (by omega) (by omega)]
      simp [hlow, show t - 4 < 4 by omega]
  · rw [BitVec.getLsbD_extractLsb',
      streamWord_bit_of_byte F _ t (2 * p + 1) (0 + t) b2 h2 ht (by omega) (by omega) (by omega)]
    simp [ht]

/-- Settles O30: both encoders reverse concatenation and make 24 bytes a chip. -/
theorem eachChipHasItsOwn24Bytes : Obligations.EachChipHasItsOwn24Bytes :=
  ⟨fun V N c => chipBytes greyFrame greyFrame_append greyFrame_length V N c,
    fun S N c => chipBytes onoffFrame onoffFrame_append frameLengthLaw S N c⟩

/-- Settles O31: the values are the frame's stream words. -/
theorem everyFrameIsOneEncoding : Obligations.EveryFrameIsOneEncoding := by
  intro N F hF
  refine ⟨frameValues F N, ⟨frameValues_length F N, greyFrame_frameValues F N hF⟩, ?_⟩
  rintro V ⟨hV, rfl⟩
  exact (frameValues_greyFrame V N hV).symm

/-- Settles O32: the two values are in range, and a flag has the bits of its value. -/
theorem encodeOnoffIsEncodeGsOfTheExtremes : Obligations.EncodeOnoffIsEncodeGsOfTheExtremes := by
  intro pos S s
  by_cases hpos : pos = 0
  · subst hpos
    have hrange : ∀ v ∈ S.map (fun f => if f then (4095 : Value16) else 0), v.toNat ≤ 4095 := by
      have hflag : ∀ f : Bool, (if f then (4095 : Value16) else 0).toNat ≤ 4095 := by decide
      intro v hv
      obtain ⟨f, -, rfl⟩ := List.mem_map.mp hv
      exact hflag f
    have hwords :
        (S.map fun f => if f then (4095 : Value16) else 0).map word12Of = S.map fun f => if f then 4095 else 0 := by
      have hflag : ∀ f : Bool, word12Of (if f then 4095 else 0) = if f then 4095 else 0 := by decide
      simp only [List.map_map, Function.comp_def, hflag]
    rw [exec_encodeOnoff_zero, exec_encodeGs_zero, if_pos hrange, hwords, onoffFrame_eq_greyFrame, List.length_map]
  · rw [exec_encodeOnoff_reserved pos S s hpos, exec_encodeGs_reserved pos _ s hpos]

/-- Settles O33: reversing reverses a concatenation, and a whole number of bytes packs on its own. -/
theorem encodingReversesConcatenation : Obligations.EncodingReversesConcatenation :=
  ⟨fun S1 S2 _ h2 => onoffFrame_append S1 S2 h2, fun V1 V2 _ h2 => greyFrame_append V1 V2 h2⟩

/-- Settles O34: a stream word is an entry of the reversed list, and a flag's 12 bits are the same in both directions. -/
theorem encodingReversesReversal : Obligations.EncodingReversesReversal := by
  constructor
  · intro V k hlen hk
    have hV : V.reverse.reverse[k]? = some V[k] := by rw [List.reverse_reverse, List.getElem?_eq_getElem hk]
    have hmirror : V.reverse[V.length - 1 - k]? = some V[k] := by
      rw [List.getElem?_reverse' (j := k) (by omega), List.getElem?_eq_getElem hk]
    rw [streamWord_greyFrame V.reverse k V[k] (by simpa using hlen) hV, streamWord_greyFrame V _ V[k] hlen hmirror]
  · intro S hlen
    rw [stream_onoffFrame S hlen, stream_onoffFrame S.reverse (by simpa using hlen), List.reverse_flatMap]
    simp [Function.comp_def]

end Sys2Proof.Proofs
end

section
/-! SUPPORT. The edges and what they do to the attached chain (60_exceptions.md section 4). -/

namespace Sys2Proof.Machine

theorem Level.ne_one_iff (v : Level) : v ≠ .one ↔ v = .zero ∨ v = .undef := by cases v <;> decide

/-- What a de-assert edge is (R140). -/
theorem edgeOf_eq_deassert (old : Level) (level : Bool) : edgeOf old level = .deassert ↔ level = false ∧ old = .one := by
  cases level <;> cases old <;> decide

/-- Driving a line to 0 changes no chain register (R205, R207). -/
@[simp] theorem Chain.react_false (c : Chain) (l : Lines) (line : Line) : c.react l ⟨line, false⟩ = c := by
  apply Chain.react_of_no_assert
  rw [Lines.edge, ne_eq, edgeOf_eq_assert]
  simp

theorem Chain.react_sclk (c : Chain) (l : Lines) (h : l.sclk ≠ .one) : c.react l ⟨.sclk, true⟩ = c.onSclk l :=
  Chain.react_of_assert c l ⟨.sclk, true⟩ ((edgeOf_eq_assert l.sclk true).mpr ⟨rfl, h⟩)

theorem Chain.react_latch (c : Chain) (l : Lines) (h : l.latch ≠ .one) : c.react l ⟨.latch, true⟩ = c.onLatch l :=
  Chain.react_of_assert c l ⟨.latch, true⟩ ((edgeOf_eq_assert l.latch true).mpr ⟨rfl, h⟩)

theorem Chain.react_gsclk (c : Chain) (l : Lines) (h : l.gsclk ≠ .one) : c.react l ⟨.gsclk, true⟩ = c.onGsclk :=
  Chain.react_of_assert c l ⟨.gsclk, true⟩ ((edgeOf_eq_assert l.gsclk true).mpr ⟨rfl, h⟩)

/-- An SCLK assert edge under LATCH and PROG at 0 (R202). -/
theorem Chain.onSclk_of_clear (c : Chain) (l : Lines) (hlatch : l.latch = .zero) (hprog : l.prog = .zero) :
    c.onSclk l = { c with sr := shiftIn l.sdata c.sr, shifting := true } := if_pos ⟨hlatch, hprog⟩

/-- An SCLK assert edge under LATCH or PROG at 1 (R203, R210). -/
theorem Chain.onSclk_of_blocked (c : Chain) (l : Lines) (h : l.latch = .one ∨ l.prog = .one) :
    c.onSclk l = { c.poison with shifting := true } := by
  have hnot : ¬ (l.latch = .zero ∧ l.prog = .zero) := by
    rcases h with h | h <;> simp [h]
  exact if_neg hnot

/-- A LATCH assert edge under PROG at 0 (R204). -/
theorem Chain.onLatch_of_clear (c : Chain) (l : Lines) (h : l.prog = .zero) :
    c.onLatch l = { c with act := (List.range c.act.length).map (chainWord c.sr), shifting := false } := if_pos h

/-- A LATCH assert edge under PROG at 1 (R210). -/
theorem Chain.onLatch_of_blocked (c : Chain) (l : Lines) (h : l.prog = .one) :
    c.onLatch l = { c.poison with shifting := false } := if_neg (by simp [h])

@[simp] theorem Chain.poison_sr (c : Chain) : c.poison.sr = List.replicate c.sr.length .undef := by simp [Chain.poison]

@[simp] theorem Chain.poison_act (c : Chain) : c.poison.act = List.replicate c.act.length .undef := by simp [Chain.poison]

@[simp] theorem Chain.poison_disp (c : Chain) : c.poison.disp = List.replicate c.disp.length .undef := by
  simp [Chain.poison]

theorem getElem?_shiftIn_succ (d : Level) (sr : List Level) (q : Nat) (h : q + 1 < sr.length) :
    (shiftIn d sr)[q + 1]? = sr[q]? := by
  rw [shiftIn, List.getElem?_take_of_lt h, List.getElem?_cons_succ]

theorem getElem?_shiftIn_zero (d : Level) (sr : List Level) (h : 0 < sr.length) : (shiftIn d sr)[0]? = some d := by
  rw [shiftIn, List.getElem?_take_of_lt h, List.getElem?_cons_zero]

/-- A list of cells has a value unless one of them is ⊥ (R36). -/
theorem cellsValue_eq_none_iff (cells : List Level) : cellsValue cells = none ↔ Level.undef ∈ cells := by
  induction cells with
  | nil => simp [cellsValue]
  | cons c cs ih =>
    cases c <;> cases h : cellsValue cs <;> simp_all [cellsValue]

/-- The value of cells that hold bits: the last cell is the most significant (R36). -/
theorem cellsValue_ofBool (bits : List Bool) : cellsValue (bits.map Level.ofBool) = some (bitsValue bits.reverse) := by
  induction bits with
  | nil => rfl
  | cons b bits ih =>
    rw [List.map_cons, List.reverse_cons, bitsValue_concat]
    cases b <;> simp [cellsValue, ih]

theorem cellsValue_word12 (v : Word12) : cellsValue ((bits12 v).reverse.map Level.ofBool) = some v.toNat := by
  rw [cellsValue_ofBool, List.reverse_reverse, bits12_eq_msbFirst, bitsValue_msbFirst]

/-- A chain word whose cells hold the bits of a value (R36). -/
theorem chainWord_eq_value (sr : List Level) (w : Nat) (v : Word12)
    (h : (sr.drop (12 * w)).take 12 = (bits12 v).reverse.map Level.ofBool) : chainWord sr w = .value v := by
  rw [chainWord, h, cellsValue_word12]
  simp

/-- A chain word is ⊥ exactly when one of its cells is (R36). -/
theorem chainWord_eq_undef_iff (sr : List Level) (w : Nat) :
    chainWord sr w = .undef ↔ Level.undef ∈ (sr.drop (12 * w)).take 12 := by
  rw [← cellsValue_eq_none_iff, chainWord]
  cases cellsValue ((sr.drop (12 * w)).take 12) <;> simp

/-- The cells of chain word w, one by one (R36). -/
theorem getElem?_chainWordCells (sr : List Level) (w t : Nat) (ht : t < 12) :
    ((sr.drop (12 * w)).take 12)[t]? = sr[12 * w + t]? := by
  rw [List.getElem?_take_of_lt ht, List.getElem?_drop]

/-! ### The light -/

theorem State.light_of_blank_one (s : State) (i : Nat) (h : s.lines.blank = .one) : s.light i = .off := by
  simp [State.light, h]

theorem State.light_of_blank_undef (s : State) (i : Nat) (h : s.lines.blank = .undef) : s.light i = .any := by
  simp [State.light, h]

/-- In the glitch window every output shows ANY (R209). -/
theorem State.light_of_glitch (s : State) (i : Nat) (h : s.lines.blank = .zero) (hs : s.chain.shifting = true) :
    s.light i = .any := by
  simp [State.light, h, hs]

/-- With BLANK at 0 and nothing being shifted an output shows its armed register (R208). -/
theorem State.light_of_armed (s : State) (i : Nat) (h : s.lines.blank = .zero) (hs : s.chain.shifting = false) :
    s.light i = (s.chain.disp.getD i .undef).light := by
  simp [State.light, h, hs]

theorem State.light_of_disp (s : State) (i : Nat) (g : Grey) (h : s.lines.blank = .zero) (hs : s.chain.shifting = false)
    (hg : s.chain.disp[i]? = some g) : s.light i = g.light := by
  rw [s.light_of_armed i h hs, List.getD_eq_getElem?_getD, hg]
  rfl

theorem Grey.light_between (v : Word12) (h1 : 1 ≤ v.toNat) (h2 : v.toNat ≤ 4094) : (Grey.value v).light = .on := by
  have hzero : v ≠ 0 := by
    rintro rfl
    exact absurd h1 (by decide)
  have hfull : v ≠ 4095 := by
    rintro rfl
    exact absurd h2 (by decide)
  rw [Grey.light, if_neg hzero, if_neg hfull]

end Sys2Proof.Machine

namespace Sys2Proof.Proofs

open Sys2Proof.Machine

/-- Settles O50: the edge is `onSclk`, in its two cases. -/
theorem sclkEdgeShiftsTheChain : Obligations.SclkEdgeShiftsTheChain := by
  intro c l hsclk
  rw [c.react_sclk l hsclk]
  refine ⟨fun hlatch hprog => ?_, fun hblocked => ?_, c.onSclk_shifting l⟩
  · rw [c.onSclk_of_clear l hlatch hprog]
    exact ⟨shiftIn_length _ _, getElem?_shiftIn_succ l.sdata c.sr, getElem?_shiftIn_zero l.sdata c.sr, rfl, rfl⟩
  · rw [c.onSclk_of_blocked l hblocked]
    exact ⟨c.poison_sr, c.poison_act, c.poison_disp⟩

/-- Settles O51: the edge is `onLatch`, and a chain word goes by its 12 cells. -/
theorem latchEdgeCopiesEveryChainWord : Obligations.LatchEdgeCopiesEveryChainWord := by
  intro c l hlatch
  rw [c.react_latch l hlatch]
  refine ⟨fun hprog => ?_, fun hprog => ?_, c.onLatch_shifting l⟩
  · rw [c.onLatch_of_clear l hprog]
    refine ⟨by simp, fun w hw => ?_, rfl, rfl⟩
    have hact : ((List.range c.act.length).map (chainWord c.sr))[w]? = some (chainWord c.sr w) := by simp [hw]
    simp only [hact, Option.some.injEq]
    constructor
    · rintro ⟨t, ht, hcell⟩
      rw [chainWord_eq_undef_iff]
      exact List.mem_of_getElem? ((getElem?_chainWordCells c.sr w t ht).trans hcell)
    · intro v hcells
      apply chainWord_eq_value
      apply List.ext_getElem?
      intro t
      by_cases ht : t < 12
      · have hbit : (bits12 v).reverse[t]? = some (v.getLsbD t) := by
          rw [bits12_eq_msbFirst, msbFirst, List.reverse_reverse]
          simp [ht]
        rw [getElem?_chainWordCells c.sr w t ht, hcells t ht, List.getElem?_map, hbit]
        rfl
      · rw [List.getElem?_eq_none (by simp; omega), List.getElem?_eq_none (by simp; omega)]
  · rw [c.onLatch_of_blocked l hprog]
    exact ⟨c.poison_sr, c.poison_act, c.poison_disp⟩

/-- Settles O52: the edge is `onGsclk`. -/
theorem gsclkEdgeArmsTheActiveValues : Obligations.GsclkEdgeArmsTheActiveValues := Chain.react_gsclk

/-- Settles O54: driving a line to 0 makes no assert edge. -/
theorem deassertEdgesChangeNoChainRegister : Obligations.DeassertEdgesChangeNoChainRegister := Chain.react_false

/-- Settles O55: by the level of BLANK, then by the armed register. -/
theorem lightFollowsTheTable : Obligations.LightFollowsTheTable := fun s i =>
  ⟨s.light_of_blank_one i, s.light_of_blank_undef i, s.light_of_glitch i, fun hblank hshifting =>
    ⟨s.light_of_disp i (.value 0) hblank hshifting, s.light_of_disp i (.value 4095) hblank hshifting,
      s.light_of_disp i .undef hblank hshifting, fun v h1 h2 hv =>
        (s.light_of_disp i (.value v) hblank hshifting hv).trans (Grey.light_between v h1 h2)⟩⟩

/-- Settles O56: an event's edge is `edgeOf` of its line's level. -/
theorem edgesFollowTheLevels : Obligations.EdgesFollowTheLevels := fun l e =>
  ⟨by rw [Lines.edge, edgeOf_eq_assert, Level.ne_one_iff], edgeOf_eq_deassert _ _, edgeOf_eq_none _ _⟩

end Sys2Proof.Proofs
end

section
/-! SUPPORT. The status register, reset and INIT, and what a step does to the host's queues and to CODE. -/

namespace Sys2Proof.Machine

/-- The value of STATUS (R29). -/
theorem State.status_toNat (s : State) : s.status.toNat = (if s.busy then 16 else 0) + s.code.bits.toNat := by
  unfold State.status
  generalize s.busy = busy
  cases s.code <;> cases busy <;> rfl

theorem State.busy_eq_false (s : State) (h : s.pend = []) : s.busy = false := by simp [State.busy, h]

/-- INIT with its reserved fields at 0 (R142). -/
theorem exec_init_zero (s : State) : exec (.init 0 0) s = .next (s.begin (initEvents s.config)) := rfl

theorem exec_init_reserved (pos : BitVec 12) (count : BitVec 16) (s : State) (h : pos ≠ 0 ∨ count ≠ 0) :
    exec (.init pos count) s = .next (s.reject .reserved) := by
  have hfields : (reservedPos pos || count != 0) = true := by
    rcases h with h | h
    · rw [reservedPos_of_ne pos h, Bool.true_or]
    · rw [bne_iff_ne.mpr h, Bool.or_true]
  exact if_pos hfields

/-- INIT's events drive BLANK to 1 and the other lines to 0, and make no edge the chain reacts to (R143). -/
theorem driveAll_initEvents (c : Config) (l : Lines) (ch : Chain) :
    driveAll (l, ch) (initEvents c) =
      (⟨.one, .zero, .zero, .zero, .zero, .zero, if c.nAux = 1 then .zero else l.aux⟩, ch) := by
  have hblank : ch.react l ⟨.blank, true⟩ = ch :=
    ch.react_of_other_line l ⟨.blank, true⟩ (by decide) (by decide) (by decide)
  unfold initEvents
  split <;> simp [hblank, Lines.drive, Lines.set]

/-- A step with the reset input asserted is a reset (R231). -/
theorem step_of_resetNow (s : State) (h : s.resetNow = true) : step s = .next s.tick.enterReset := by
  simp [step, h]

end Sys2Proof.Machine

namespace Sys2Proof.Proofs

open Sys2Proof.Machine

/-- Settles O14: BUSY is the non-emptiness of PEND, and the code has its number. -/
theorem statusHoldsCodeAndBusy : Obligations.StatusHoldsCodeAndBusy := by
  intro s
  rw [s.status_toNat]
  congr 1
  · cases hp : s.pend <;> simp [State.busy, hp]
  · cases s.code <;> rfl

/-- Settles O15: such a step is a reset. -/
theorem resetInputRestartsTheBlock : Obligations.ResetInputRestartsTheBlock := step_of_resetNow

/-- Settles O16: field by field. -/
theorem powerUpStateIsAsTheSpecSays : Obligations.PowerUpStateIsAsTheSpecSays := by
  refine ⟨fun c => ⟨fun l => ?_, rfl, ?_, ?_, rfl, ?_, fun q hq => ?_, fun w hw => ?_, rfl⟩, rfl⟩
  · cases l <;> rfl
  · rw [initEvents_length]
    split <;> rfl
  · apply BitVec.eq_of_toNat_eq
    have hbusy : (State.resetWith c).busy = true := (State.busy_iff _).mpr (initEvents_ne_nil c)
    rw [State.status_toNat, hbusy]
    rfl
  · simp [State.sized, Chain.powerUp]
  · exact List.getElem?_replicate_of_lt hq
  · exact ⟨List.getElem?_replicate_of_lt hw, List.getElem?_replicate_of_lt hw⟩

/-- Settles O17: the run performs INIT's events, which leave BLANK at 1. -/
theorem initDrivesTheIdleLevels : Obligations.InitDrivesTheIdleLevels := by
  intro s hp hq
  have hrun := s.run_pending (initEvents s.config) [] (by rw [hp, List.append_nil]) hq
  rw [driveAll_initEvents, if_neg (initEvents_ne_nil s.config)] at hrun
  exact ⟨_, hrun, rfl, fun i => State.light_of_blank_one _ i rfl⟩

/-- Settles O18: by the two reserved fields. -/
theorem initQueuesItsEvents : Obligations.InitQueuesItsEvents :=
  ⟨exec_init_zero, fun s pos count h => exec_init_reserved pos count s h⟩

/-- Settles O9: of all that a step can do only accepting takes a command, and only an encoder's completion returns a frame. -/
theorem commandsAreTakenInOrderAndOnlyWhenIdle : Obligations.CommandsAreTakenInOrderAndOnlyWhenIdle := by
  intro s t h
  rcases step_cases s t h with ⟨-, rfl⟩ | ⟨-, e, rest, -, rfl⟩ | ⟨-, -, -, rfl⟩ | ⟨hr, hp, c, later, hi, hacc⟩
  · exact .inl ⟨rfl, rfl⟩
  · exact .inl ⟨rfl, rfl⟩
  · exact .inl ⟨rfl, rfl⟩
  · refine .inr ⟨hp, hr, c, ?_⟩
    rcases accept_cases c _ t hacc with ⟨code, -, rfl⟩ | ⟨f, rfl⟩ | rfl | ⟨f, -, rfl⟩
    · exact ⟨hi, .inl rfl⟩
    · exact ⟨hi, .inr ⟨f, rfl, rfl, hp⟩⟩
    · exact ⟨hi, .inl rfl⟩
    · exact ⟨hi, .inl rfl⟩

/-- Settles O11: CODE is written by the last event, by a rejection and by an encoder's completion alone. -/
theorem codeChangesOnlyWhenACommandEnds : Obligations.CodeChangesOnlyWhenACommandEnds := by
  intro s t hreset h hcode
  rcases step_cases s t h with ⟨hr, -⟩ | ⟨-, e, rest, hp, rfl⟩ | ⟨-, -, -, rfl⟩ | ⟨-, hp, c, later, hi, hacc⟩
  · simp [hreset] at hr
  · cases rest with
    | nil => exact ⟨rfl, .inl ⟨e, hp, rfl⟩⟩
    | cons e' rest => exact absurd rfl hcode
  · exact absurd rfl hcode
  · rcases accept_cases c _ t hacc with ⟨code, -, rfl⟩ | ⟨f, rfl⟩ | rfl | ⟨f, -, rfl⟩
    · exact ⟨hp, .inr ⟨hp, c, hi⟩⟩
    · exact ⟨hp, .inr ⟨hp, c, hi⟩⟩
    · exact absurd rfl hcode
    · exact absurd rfl hcode

end Sys2Proof.Proofs
end

section
/-! SUPPORT. The invariant and the glitch window, over every step (41_chip_link.md R149, 70_reset_and_hazards.md R242). -/

namespace Sys2Proof.Machine

/-- Idle lines, written out. -/
theorem Lines.eq_of_idle (l : Lines) (h : l.idle = true) :
    l = ⟨l.blank, .zero, .zero, .zero, .zero, l.sdata, l.aux⟩ := by
  obtain ⟨blank, latch, gsclk, prog, sclk, sdata, aux⟩ := l
  obtain ⟨rfl, rfl, rfl, rfl, -, -⟩ := (Lines.idle_iff _).mp h
  rfl

/-- The level of SDATA after bits have been shifted: the last bit, if there was one (R147). -/
def sdataAfter (sdata : Level) (bits : List Bool) : Level := (bits.getLast?.map Level.ofBool).getD sdata

theorem sdataAfter_cons (sdata : Level) (b : Bool) (bits : List Bool) :
    sdataAfter (Level.ofBool b) bits = sdataAfter sdata (b :: bits) := by
  cases bits with
  | nil => simp [sdataAfter]
  | cons b' bits => simp [sdataAfter, List.getLast?_eq_some_getLast]

theorem sdataAfter_ne_undef (sdata : Level) (bits : List Bool) (h : sdata ≠ .undef) :
    sdataAfter sdata bits ≠ .undef := by
  cases hlast : bits.getLast? <;> simp [sdataAfter, hlast, h]

/-- INIT's events are clean from any lines (R143, R149). -/
theorem cleanFrom_initEvents (c : Config) (l : Lines) : cleanFrom l (initEvents c) = true := by
  unfold initEvents
  split <;> rfl

/-- Shifting bits under LATCH, PROG and SCLK at 0 is clean (R147, R149). -/
theorem cleanFrom_shiftBits (bits : List Bool) (blank gsclk sdata aux : Level) (es : List Event) :
    cleanFrom ⟨blank, .zero, gsclk, .zero, .zero, sdata, aux⟩ (bits.flatMap shiftBit ++ es) =
      cleanFrom ⟨blank, .zero, gsclk, .zero, .zero, sdataAfter sdata bits, aux⟩ es := by
  induction bits generalizing sdata with
  | nil => rfl
  | cons b bits ih =>
    have hone : cleanFrom ⟨blank, .zero, gsclk, .zero, .zero, sdata, aux⟩ (shiftBit b ++ (bits.flatMap shiftBit ++ es)) =
        cleanFrom ⟨blank, .zero, gsclk, .zero, .zero, Level.ofBool b, aux⟩ (bits.flatMap shiftBit ++ es) := by
      cases b <;> rfl
    rw [List.flatMap_cons, List.append_assoc, hone, ih, sdataAfter_cons]

/-- The end of a TRANSMIT is clean, and leaves the lines idle (R149, R151). -/
theorem cleanFrom_latchAndShow (sdata aux : Level) (h : sdata ≠ .undef) :
    cleanFrom ⟨.one, .zero, .zero, .zero, .zero, sdata, aux⟩ latchAndShow = true := by
  cases sdata with
  | zero => rfl
  | one => rfl
  | undef => exact absurd rfl h

/-- A TRANSMIT accepted with idle lines is clean, in both orders (R149). -/
theorem cleanFrom_txEvents (o : BlankOrder) (f : Frame) (l : Lines) (h : l.idle = true) :
    cleanFrom l (txEvents o f) = true := by
  obtain ⟨-, -, -, -, -, hsdata⟩ := (Lines.idle_iff l).mp h
  have hend := cleanFrom_latchAndShow _ l.aux (sdataAfter_ne_undef l.sdata (stream f) hsdata)
  rw [l.eq_of_idle h]
  cases o with
  | contract => exact (cleanFrom_shiftBits (stream f) .one .zero l.sdata l.aux latchAndShow).trans hend
  | reference =>
    exact (cleanFrom_shiftBits (stream f) l.blank .zero l.sdata l.aux (⟨.blank, true⟩ :: latchAndShow)).trans hend

theorem cleanFrom_cons (l : Lines) (e : Event) (es : List Event) (h : cleanFrom l (e :: es) = true) :
    e.clean l = true ∧ cleanFrom (l.drive e) es = true := by
  rwa [cleanFrom, Bool.and_eq_true] at h

/-- With nothing pending the invariant says that the lines are idle. -/
theorem State.Inv.idle (s : State) (h : s.Inv) (hp : s.pend = []) : s.lines.idle = true := by
  obtain ⟨-, -, -, hclean, -, -⟩ := h
  rwa [hp] at hclean

/-- INIT fits the bound on pending events, since N is at least 1 (R28). -/
theorem initEvents_length_le (c : Config) (h : c.legal) : (initEvents c).length ≤ c.txLength := by
  obtain ⟨hn, -⟩ := h
  rw [initEvents_length, Config.txLength]
  split <;> omega

/-- With INIT's events pending the invariant needs only a legal configuration and a chain of its size. -/
theorem inv_of_initPending (s : State) (hlegal : s.config.legal) (hsized : s.sized) (hp : s.pend = initEvents s.config) :
    s.Inv := by
  rw [State.Inv, hp]
  exact ⟨hlegal, hsized, initEvents_length_le s.config hlegal, cleanFrom_initEvents s.config s.lines,
    latchAfterShift_initEvents s.config, auxIdleAfter_initEvents s.config s.lines⟩

/-- Performing an event keeps the chain's size (R200). -/
theorem State.controllerStep_sized (s : State) (e : Event) (rest : List Event) (h : s.sized) :
    (s.controllerStep e rest).sized := by
  obtain ⟨hsr, hact, hdisp⟩ := h
  exact ⟨(s.chain.react_sr_length s.lines e).trans hsr, (s.chain.react_act_length s.lines e).trans hact,
    (s.chain.react_disp_length s.lines e (hdisp.trans hact.symm)).trans hdisp⟩

/-- Performing the head of PEND keeps the invariant (R141). -/
theorem State.controllerStep_inv (s : State) (e : Event) (rest : List Event) (hp : s.pend = e :: rest) (h : s.Inv) :
    (s.controllerStep e rest).Inv := by
  obtain ⟨hlegal, hsized, hlength, hclean, hlatch, haux⟩ := h
  rw [hp] at hlength hclean hlatch haux
  exact ⟨hlegal, s.controllerStep_sized e rest hsized, (Nat.le_succ rest.length).trans hlength,
    (cleanFrom_cons s.lines e rest hclean).2, latchAfterShift_tail e rest hlatch, haux⟩

/-- Accepting a command in an idle block keeps the invariant (R190). -/
theorem accept_inv (c : Command) (s t : State) (h : s.Inv) (hp : s.pend = []) (hacc : accept c s = .next t) : t.Inv := by
  have hidle := h.idle s hp
  rcases accept_cases c s t hacc with ⟨code, -, rfl⟩ | ⟨f, rfl⟩ | rfl | ⟨f, hf, rfl⟩
  · exact h
  · exact h
  · obtain ⟨hlegal, hsized, -⟩ := h
    exact inv_of_initPending _ hlegal hsized rfl
  · obtain ⟨hlegal, hsized, -, -, -, haux⟩ := h
    rw [hp] at haux
    refine ⟨hlegal, hsized, ?_, cleanFrom_txEvents _ f s.lines hidle, latchAfterShift_txEvents _ f, ?_⟩
    · rw [State.begin_pend, txEvents_length, hf]
      show 24 * (24 * s.config.n) + 6 ≤ 576 * s.config.n + 6
      omega
    · rw [State.begin_pend, auxIdleAfter_txEvents]
      exact haux

/-! ### The glitch window -/

theorem glitchFreeFrom_head (l : Lines) (shifting : Bool) (es : List Event) (h : glitchFreeFrom l shifting es = true) :
    glitchOpen l shifting = false := by
  cases es with
  | nil => simpa [glitchFreeFrom] using h
  | cons e es => simp_all [glitchFreeFrom]

theorem glitchFreeFrom_cons (l : Lines) (shifting : Bool) (e : Event) (es : List Event) :
    glitchFreeFrom l shifting (e :: es) = true ↔
      glitchOpen l shifting = false ∧ glitchFreeFrom (l.drive e) (shiftingAfter l e shifting) es = true := by
  simp [glitchFreeFrom]

/-- A state in which no glitch window is open or opens has none open now (R209). -/
theorem State.glitchFree.not_open (s : State) (h : s.glitchFree) :
    ¬ (s.chain.shifting = true ∧ s.lines.blank = .zero) := by
  have hopen := glitchFreeFrom_head _ _ _ h
  rintro ⟨hs, hb⟩
  simp [glitchOpen, hs, hb] at hopen

/-- While BLANK is at 1 and no event de-asserts it, the glitch window stays closed (R209). -/
theorem glitchFreeFrom_of_blanked (es : List Event) (l : Lines) (shifting : Bool) (hl : l.blank = .one)
    (hes : (⟨.blank, false⟩ : Event) ∉ es) : glitchFreeFrom l shifting es = true := by
  have hclosed : glitchOpen l shifting = false := by simp [glitchOpen, hl]
  induction es generalizing l shifting with
  | nil => simp [glitchFreeFrom, hclosed]
  | cons e es ih =>
    rw [List.mem_cons, not_or] at hes
    have hblank : (l.drive e).blank = .one := by
      by_cases hline : e.line = .blank
      · obtain ⟨line, level⟩ := e
        subst hline
        cases level with
        | true => rfl
        | false => exact absurd rfl hes.1
      · exact (l.drive_get_other e .blank (Ne.symm hline)).trans hl
    rw [glitchFreeFrom_cons]
    exact ⟨hclosed, ih _ _ hblank hes.2 (by simp [glitchOpen, hblank])⟩

/-- INIT asserts BLANK first, so it opens no glitch window (R143). -/
theorem glitchFreeFrom_initEvents (c : Config) (l : Lines) (shifting : Bool) (h : glitchOpen l shifting = false) :
    glitchFreeFrom l shifting (initEvents c) = true := by
  refine (glitchFreeFrom_cons _ _ _ _).mpr ⟨h, glitchFreeFrom_of_blanked _ _ _ rfl ?_⟩
  split <;> decide

/-- Under BLANK at 1 the shift opens no glitch window (R147). -/
theorem glitchFreeFrom_shiftBits (bits : List Bool) (sdata aux : Level) (shifting : Bool) (es : List Event) :
    glitchFreeFrom ⟨.one, .zero, .zero, .zero, .zero, sdata, aux⟩ shifting (bits.flatMap shiftBit ++ es) =
      glitchFreeFrom ⟨.one, .zero, .zero, .zero, .zero, sdataAfter sdata bits, aux⟩ (shifting || !bits.isEmpty) es := by
  induction bits generalizing sdata shifting with
  | nil => simp [sdataAfter]
  | cons b bits ih =>
    have hone : glitchFreeFrom ⟨.one, .zero, .zero, .zero, .zero, sdata, aux⟩ shifting
          (shiftBit b ++ (bits.flatMap shiftBit ++ es)) =
        glitchFreeFrom ⟨.one, .zero, .zero, .zero, .zero, Level.ofBool b, aux⟩ true (bits.flatMap shiftBit ++ es) := by
      cases b <;> cases shifting <;> cases sdata <;> rfl
    rw [List.flatMap_cons, List.append_assoc, hone, ih, sdataAfter_cons sdata]
    simp

/-- The latch pulse ends the shift before BLANK is de-asserted (R147). -/
theorem glitchFreeFrom_latchAndShow (sdata aux : Level) (shifting : Bool) :
    glitchFreeFrom ⟨.one, .zero, .zero, .zero, .zero, sdata, aux⟩ shifting latchAndShow = true := by
  cases shifting <;> rfl

/-- In the CONTRACT order a TRANSMIT accepted with idle lines opens no glitch window (R242). -/
theorem glitchFreeFrom_txEvents_contract (f : Frame) (l : Lines) (shifting : Bool) (hidle : l.idle = true)
    (h : glitchOpen l shifting = false) : glitchFreeFrom l shifting (txEvents .contract f) = true := by
  refine (glitchFreeFrom_cons _ _ _ _).mpr ⟨h, ?_⟩
  rw [l.eq_of_idle hidle]
  exact (glitchFreeFrom_shiftBits (stream f) l.sdata l.aux shifting latchAndShow).trans (glitchFreeFrom_latchAndShow _ _ _)

/-- Reset leaves BLANK undriven, so no glitch window is open (R42). -/
theorem glitchFreeFrom_undriven (c : Config) (shifting : Bool) :
    glitchFreeFrom Lines.undriven shifting (initEvents c) = true :=
  glitchFreeFrom_initEvents c _ _ (Bool.and_false shifting)

/-- Performing the head of PEND opens no glitch window that the list did not announce (R141). -/
theorem State.controllerStep_glitchFree (s : State) (e : Event) (rest : List Event) (hp : s.pend = e :: rest)
    (h : s.glitchFree) : (s.controllerStep e rest).glitchFree := by
  rw [State.glitchFree, hp, glitchFreeFrom_cons] at h
  rw [State.glitchFree, State.controllerStep_chain, Chain.react_shifting]
  exact h.2

/-- In the CONTRACT order accepting a command opens no glitch window (R242). -/
theorem accept_glitchFree (c : Command) (s t : State) (h : s.Inv) (horder : s.config.blankOrder = .contract)
    (hglitch : s.glitchFree) (hp : s.pend = []) (hacc : accept c s = .next t) : t.glitchFree := by
  have hopen := glitchFreeFrom_head _ _ _ hglitch
  rcases accept_cases c s t hacc with ⟨code, -, rfl⟩ | ⟨f, rfl⟩ | rfl | ⟨f, -, rfl⟩
  · exact hglitch
  · exact hglitch
  · exact glitchFreeFrom_initEvents s.config s.lines _ hopen
  · rw [State.glitchFree, State.begin_pend, horder]
    exact glitchFreeFrom_txEvents_contract f s.lines _ (h.idle s hp) hopen

/-! ### The chain holds values -/

/-- What a clean SCLK rise finds on the lines (R149). -/
theorem Event.clean_sclk (l : Lines) (e : Event) (h : e.clean l = true) (hline : e.line = .sclk) (hlevel : e.level = true) :
    l.latch = .zero ∧ l.prog = .zero ∧ l.sdata ≠ .undef := by
  simpa [Event.clean, hline, hlevel, and_assoc] using h

/-- What a clean LATCH rise finds on the lines (R149). -/
theorem Event.clean_latch (l : Lines) (e : Event) (h : e.clean l = true) (hline : e.line = .latch)
    (hlevel : e.level = true) : l.sclk = .zero ∧ l.prog = .zero := by
  simpa [Event.clean, hline, hlevel] using h

/-- A chain of defined cells has defined words (R36). -/
theorem chainWord_ne_undef (sr : List Level) (w : Nat) (h : Level.undef ∉ sr) : chainWord sr w ≠ .undef := by
  rw [ne_eq, chainWord_eq_undef_iff]
  exact fun hmem => h (List.mem_of_mem_drop (List.mem_of_mem_take hmem))

/-- A clean event loses nothing of a chain that holds values (R203, R210). -/
theorem Chain.react_defined (c : Chain) (l : Lines) (e : Event) (hc : c.defined) (he : e.clean l = true) :
    (c.react l e).defined := by
  obtain ⟨hsr, hact, hdisp⟩ := hc
  have hlevel : l.edge e = .assert → e.level = true := fun hedge => ((edgeOf_eq_assert _ _).mp hedge).1
  rcases c.react_cases l e with h | ⟨hline, hedge, h⟩ | ⟨hline, hedge, h⟩ | ⟨-, -, h⟩ <;> rw [h]
  · exact ⟨hsr, hact, hdisp⟩
  · obtain ⟨hlatch, hprog, hsdata⟩ := e.clean_sclk l he hline (hlevel hedge)
    rw [c.onSclk_of_clear l hlatch hprog]
    refine ⟨fun hmem => ?_, hact, hdisp⟩
    rcases List.mem_cons.mp (List.mem_of_mem_take hmem) with hfirst | hrest
    · exact hsdata hfirst.symm
    · exact hsr hrest
  · obtain ⟨-, hprog⟩ := e.clean_latch l he hline (hlevel hedge)
    rw [c.onLatch_of_clear l hprog]
    refine ⟨hsr, fun hmem => ?_, hdisp⟩
    obtain ⟨w, -, hw⟩ := List.mem_map.mp hmem
    exact chainWord_ne_undef c.sr w hsr hw
  · exact ⟨hsr, hact, hact⟩

/-- Accepting a command leaves the chain as it is (R26, R182). -/
theorem accept_chain (c : Command) (s t : State) (h : accept c s = .next t) : t.chain = s.chain := by
  rcases accept_cases c s t h with ⟨code, -, rfl⟩ | ⟨f, rfl⟩ | rfl | ⟨f, -, rfl⟩
  · exact s.reject_chain code
  · exact s.returnFrame_chain f
  · exact s.begin_chain _
  · exact s.begin_chain _

end Sys2Proof.Machine

namespace Sys2Proof.Proofs

open Sys2Proof.Machine

/-- Settles O45: reset makes INIT pending, an event is the head of a clean list, and what is accepted is clean. -/
theorem everyStepKeepsTheInvariant : Obligations.EveryStepKeepsTheInvariant := by
  intro s t hinv h
  rcases step_cases s t h with ⟨-, rfl⟩ | ⟨-, e, rest, hp, rfl⟩ | ⟨-, -, -, rfl⟩ | ⟨-, hp, c, later, -, hacc⟩
  · obtain ⟨hlegal, hsized, -⟩ := hinv
    exact inv_of_initPending _ hlegal hsized rfl
  · exact s.tick.controllerStep_inv e rest hp hinv
  · exact hinv
  · exact accept_inv c { s.tick with inbox := later } t hinv hp hacc

/-- Settles O47: reset leaves BLANK undriven, and the commands' events assert BLANK before they shift. -/
theorem contractOrderKeepsTheGlitchWindowClosed : Obligations.ContractOrderKeepsTheGlitchWindowClosed := by
  intro s t hinv horder hglitch h
  have hnext : t.glitchFree := by
    rcases step_cases s t h with ⟨-, rfl⟩ | ⟨-, e, rest, hp, rfl⟩ | ⟨-, -, -, rfl⟩ | ⟨-, hp, c, later, -, hacc⟩
    · exact glitchFreeFrom_undriven s.config s.chain.shifting
    · exact s.tick.controllerStep_glitchFree e rest hp hglitch
    · exact hglitch
    · exact accept_glitchFree c { s.tick with inbox := later } t hinv horder hglitch hp hacc
  exact ⟨hnext, hnext.not_open t⟩

/-- Settles O49: the chain changes only by an event, and the pending events are clean. -/
theorem theBlockNeverUndefinesTheChain : Obligations.TheBlockNeverUndefinesTheChain := by
  intro s t hinv hdefined h
  rcases step_cases s t h with ⟨-, rfl⟩ | ⟨-, e, rest, hp, rfl⟩ | ⟨-, -, -, rfl⟩ | ⟨-, -, c, later, -, hacc⟩
  · exact hdefined
  · obtain ⟨-, -, -, hclean, -, -⟩ := hinv
    rw [hp] at hclean
    exact s.chain.react_defined s.lines e hdefined (cleanFrom_cons _ _ _ hclean).1
  · exact hdefined
  · rw [accept_chain c _ t hacc]
    exact hdefined

/-- Settles O44: INIT is pending, and the chain has its size. -/
theorem invariantHoldsAfterReset : Obligations.InvariantHoldsAfterReset := by
  have hreset : ∀ c : Config, c.legal → (State.resetWith c).Inv := fun c hc =>
    inv_of_initPending _ hc (by simp [State.sized, Chain.powerUp]) rfl
  exact ⟨hreset, hreset Config.default (by decide)⟩

/-- Settles O46: BLANK is undriven, and INIT asserts it first. -/
theorem noGlitchWindowAfterReset : Obligations.NoGlitchWindowAfterReset := fun c => glitchFreeFrom_undriven c _

end Sys2Proof.Proofs
end

section
/-! SUPPORT. The course of a TRANSMIT from its acceptance to its last event (41_chip_link.md sections 3 and 4). -/

namespace Sys2Proof.Machine

/-! ### The commands' events -/

/-- TRANSMIT of a frame that fits the chain (R146). -/
theorem exec_transmit_zero (f : Frame) (s : State) :
    exec (.transmit 0 f) s =
      if f.length = 24 * s.config.n then .next (s.begin (txEvents s.config.blankOrder f))
      else .next (s.reject .frameLength) := by
  by_cases hlen : f.length = 24 * s.config.n
  · simp [exec, execTransmit, fitsChain, Config.frameBytes, hlen]
  · simp [exec, execTransmit, fitsChain, Config.frameBytes, hlen]

theorem exec_transmit_reserved (pos : BitVec 12) (f : Frame) (s : State) (h : pos ≠ 0) :
    exec (.transmit pos f) s = .next (s.reject .reserved) := if_pos (reservedPos_of_ne pos h)

/-- The stream of a frame by the spec's own index (R51). -/
theorem stream_eq_map_range (f : Frame) :
    stream f = (List.range (8 * f.length)).map fun m => (f.getD (m / 8) 0).getLsbD (7 - m % 8) := by
  apply List.ext_getElem?
  intro m
  rw [getElem?_stream, List.getElem?_map]
  by_cases hm : m < 8 * f.length
  · have hbyte : m / 8 < f.length := by omega
    rw [List.getElem?_range hm, List.getElem?_eq_getElem hbyte, Option.map_some, Option.map_some,
      List.getD_eq_getElem _ _ hbyte]
  · rw [List.getElem?_eq_none (by omega), List.getElem?_eq_none (by simp; omega)]
    rfl

/-- The shift by the spec's own index (R147). -/
theorem shiftFrame_eq_flatMap_range (f : Frame) :
    shiftFrame f = (List.range (8 * f.length)).flatMap fun m =>
      [⟨.sdata, (f.getD (m / 8) 0).getLsbD (7 - m % 8)⟩, ⟨.sclk, true⟩, ⟨.sclk, false⟩] := by
  rw [shiftFrame, stream_eq_map_range, List.flatMap_map]
  rfl

/-- Each bit raises SCLK once (R147). -/
theorem shiftFrame_count_sclk (f : Frame) : (shiftFrame f).count ⟨.sclk, true⟩ = 8 * f.length := by
  have hbit : ∀ b : Bool, (shiftBit b).count ⟨.sclk, true⟩ = 1 := by decide
  rw [shiftFrame, ← stream_length]
  induction stream f with
  | nil => rfl
  | cons b bs ih => rw [List.flatMap_cons, List.count_append, hbit, ih, List.length_cons, Nat.add_comm]

/-- The shift has no event on another line than SDATA and SCLK (R147). -/
theorem not_mem_shiftFrame (f : Frame) (e : Event) (hdata : e.line ≠ .sdata) (hclk : e.line ≠ .sclk) :
    e ∉ shiftFrame f := fun h => by
  rcases shiftFrame_line f e h with hline | hline
  · exact hdata hline
  · exact hclk hline

/-- The events of a TRANSMIT up to the latch pulse: the two orders differ here only (R147, R148). -/
def shiftPhase (order : BlankOrder) (f : Frame) : List Event :=
  match order with
  | .contract => ⟨.blank, true⟩ :: shiftFrame f
  | .reference => shiftFrame f ++ [⟨.blank, true⟩]

theorem txEvents_eq (order : BlankOrder) (f : Frame) : txEvents order f = shiftPhase order f ++ latchAndShow := by
  cases order with
  | contract => rfl
  | reference => simp [txEvents, shiftPhase]

theorem shiftPhase_length (order : BlankOrder) (f : Frame) : (shiftPhase order f).length = 24 * f.length + 1 := by
  cases order <;> simp [shiftPhase, shiftFrame_length]

/-- Beside the shift the first phase drives only BLANK, so it has as many of another event as the shift has. -/
theorem shiftPhase_count (order : BlankOrder) (f : Frame) (e : Event) (h : e ≠ ⟨.blank, true⟩) :
    (shiftPhase order f).count e = (shiftFrame f).count e := by
  cases order with
  | contract => exact List.count_cons_of_ne (Ne.symm h)
  | reference =>
    rw [shiftPhase, List.count_append, List.count_singleton, if_neg (by simpa using Ne.symm h), Nat.add_zero]

/-! ### Runs of a TRANSMIT -/

/-- The state of a TRANSMIT that was accepted in `s`, leaving `later` presented, when it has performed the events `es` and has
`rest` left. -/
def State.during (s : State) (later : List Command) (es rest : List Event) : State where
  lines := (driveAll (s.lines, s.chain) es).1
  pend := rest
  code := if es = [] then s.code else codeAfter rest s.code
  config := s.config
  chain := (driveAll (s.lines, s.chain) es).2
  inbox := later
  returned := s.returned
  resetIn := s.resetIn.drop (es.length + 1)

theorem State.during_chain (s : State) (later : List Command) (es rest : List Event) :
    (s.during later es rest).chain = (driveAll (s.lines, s.chain) es).2 := rfl

/-- CODE is written by the last event alone (R31). -/
theorem State.during_code_of_busy (s : State) (later : List Command) (es rest : List Event) (h : rest ≠ []) :
    (s.during later es rest).code = s.code := by
  simp [State.during, codeAfter_eq, h]

theorem State.during_code_of_done (s : State) (later : List Command) (es : List Event) (h : es ≠ []) :
    (s.during later es []).code = .ok := if_neg h

/-- The run of a TRANSMIT from an idle state, up to any of its events (R141, R155). -/
theorem State.run_transmit (s : State) (c : Command) (later : List Command) (f : Frame) (es rest : List Event)
    (hp : s.pend = []) (hi : s.inbox = c :: later) (hdecode : decode c = .command (.transmit 0 f))
    (hf : f.length = 24 * s.config.n) (hsplit : txEvents s.config.blankOrder f = es ++ rest)
    (hq : s.resetQuiet (es.length + 1)) : s.run (es.length + 1) = .next (s.during later es rest) := by
  obtain ⟨hr, hq'⟩ := s.resetQuiet_succ es.length hq
  have hstep : step s = .next (({ s.tick with inbox := later } : State).begin (es ++ rest)) := by
    rw [step_of_accepting s c later hp hi hr, accept_of_command c _ _ hdecode, ← hsplit]
    exact (exec_transmit_zero f _).trans (if_pos hf)
  rw [State.run_succ s _ _ hstep]
  refine (State.run_pending (({ s.tick with inbox := later } : State).begin (es ++ rest)) es rest rfl hq').trans ?_
  simp [State.during]

/-- The run of a TRANSMIT for `k` events. -/
theorem State.run_transmit_take (s : State) (c : Command) (later : List Command) (f : Frame) (k : Nat)
    (hp : s.pend = []) (hi : s.inbox = c :: later) (hdecode : decode c = .command (.transmit 0 f))
    (hf : f.length = 24 * s.config.n) (hk : k ≤ 576 * s.config.n + 6) (hq : s.resetQuiet (k + 1)) :
    s.run (k + 1) =
      .next (s.during later ((txEvents s.config.blankOrder f).take k) ((txEvents s.config.blankOrder f).drop k)) := by
  have hlen : ((txEvents s.config.blankOrder f).take k).length = k := by
    rw [List.length_take, txEvents_length]
    omega
  have hrun := s.run_transmit c later f _ _ hp hi hdecode hf (List.take_append_drop k _).symm
  rw [hlen] at hrun
  exact hrun hq

/-! ### The lines and the chain during a TRANSMIT -/

/-- Events on other lines leave BLANK as it is (R140). -/
theorem driveAll_blank (p : Lines × Chain) (es : List Event) (h : ∀ e ∈ es, e.line ≠ .blank) :
    (driveAll p es).1.blank = p.1.blank := by
  induction es generalizing p with
  | nil => rfl
  | cons e es ih =>
    rw [driveAll_cons, ih _ fun e' he' => h e' (List.mem_cons_of_mem e he')]
    exact p.1.drive_get_other e .blank (Ne.symm (h e List.mem_cons_self))

/-- SHIFTING stays 1 without an event on LATCH (R39). -/
theorem driveAll_shifting (p : Lines × Chain) (es : List Event) (hp : p.2.shifting = true)
    (h : ∀ e ∈ es, e.line ≠ .latch) : (driveAll p es).2.shifting = true := by
  induction es generalizing p with
  | nil => exact hp
  | cons e es ih =>
    refine ih _ ?_ fun e' he' => h e' (List.mem_cons_of_mem e he')
    show (p.2.react p.1 e).shifting = true
    rcases p.2.react_cases p.1 e with hreact | ⟨-, -, hreact⟩ | ⟨hline, -⟩ | ⟨-, -, hreact⟩
    · rw [hreact, hp]
    · rw [hreact, Chain.onSclk_shifting]
    · exact absurd hline (h e List.mem_cons_self)
    · rw [hreact]
      exact hp

/-- The chain register after `bits` have been shifted into it (R202). -/
def shifted (bits : List Bool) (sr : List Level) : List Level := (bits.reverse.map Level.ofBool ++ sr).take sr.length

/-- The cells nearest the host hold the bits, the last one first (R211). -/
theorem getElem?_shifted_of_lt (bits : List Bool) (sr : List Level) (q : Nat) (hq : q < bits.length)
    (hfit : bits.length ≤ sr.length) : (shifted bits sr)[q]? = bits[bits.length - 1 - q]?.map Level.ofBool := by
  rw [shifted, List.getElem?_take_of_lt (by omega), List.getElem?_append_left (by simpa), List.getElem?_map,
    List.getElem?_reverse hq]

/-- The cells beyond hold what the cells before them held (R211). -/
theorem getElem?_shifted_of_ge (bits : List Bool) (sr : List Level) (q : Nat) (hq : bits.length ≤ q)
    (hfit : q < sr.length) : (shifted bits sr)[q]? = sr[q - bits.length]? := by
  rw [shifted, List.getElem?_take_of_lt hfit, List.getElem?_append_right (by simpa)]
  simp

/-- As many bits as there are cells replace the register's content (R150). -/
theorem shifted_of_full (bits : List Bool) (sr : List Level) (h : bits.length = sr.length) :
    shifted bits sr = bits.reverse.map Level.ofBool := by
  rw [shifted, List.take_left' (by simpa)]

/-- Shifting bits from idle lines, BLANK as it is (R147). -/
theorem driveAll_shiftBits_idle (l : Lines) (c : Chain) (hidle : l.idle = true) (bits : List Bool) :
    driveAll (l, c) (bits.flatMap shiftBit) =
      (⟨l.blank, .zero, .zero, .zero, .zero, sdataAfter l.sdata bits, l.aux⟩,
       ⟨shifted bits c.sr, c.act, c.disp, c.shifting || !bits.isEmpty⟩) := by
  rw [l.eq_of_idle hidle]
  exact driveAll_shiftBits bits l.blank .zero l.sdata l.aux c.sr c.act c.disp c.shifting

theorem Lines.idle_drive_blank (l : Lines) (hidle : l.idle = true) : (l.drive ⟨.blank, true⟩).idle = true := by
  obtain ⟨hlatch, hgsclk, hprog, hsclk, -, hsdata⟩ := (Lines.idle_iff l).mp hidle
  exact (Lines.idle_iff _).mpr ⟨hlatch, hgsclk, hprog, hsclk, Level.ofBool_ne_undef true, hsdata⟩

/-- BLANK asserted and then bits shifted, as in the CONTRACT order (R147). -/
theorem driveAll_blank_shiftBits (l : Lines) (c : Chain) (hidle : l.idle = true) (bits : List Bool) :
    driveAll (l, c) (⟨.blank, true⟩ :: bits.flatMap shiftBit) =
      (⟨.one, .zero, .zero, .zero, .zero, sdataAfter l.sdata bits, l.aux⟩,
       ⟨shifted bits c.sr, c.act, c.disp, c.shifting || !bits.isEmpty⟩) := by
  rw [driveAll_cons, c.react_of_other_line l ⟨.blank, true⟩ (by decide) (by decide) (by decide)]
  exact driveAll_shiftBits_idle _ c (l.idle_drive_blank hidle) bits

/-- The lines and the chain before the latch pulse: the same in both orders (R147, R148). -/
theorem driveAll_shiftPhase (order : BlankOrder) (f : Frame) (l : Lines) (c : Chain) (hidle : l.idle = true) :
    driveAll (l, c) (shiftPhase order f) =
      (⟨.one, .zero, .zero, .zero, .zero, sdataAfter l.sdata (stream f), l.aux⟩,
       ⟨shifted (stream f) c.sr, c.act, c.disp, c.shifting || !(stream f).isEmpty⟩) := by
  cases order with
  | contract => exact driveAll_blank_shiftBits l c hidle (stream f)
  | reference =>
    rw [shiftPhase, driveAll_append, shiftFrame, driveAll_shiftBits_idle l c hidle (stream f), driveAll_cons, driveAll_nil]
    exact congrArg _ (Chain.react_of_other_line _ _ ⟨.blank, true⟩ (by decide) (by decide) (by decide))

/-- The ACT registers after a latch: the chain words of `sr`, as many as there were registers (R204). -/
def latched (sr : List Level) (act : List Grey) : List Grey := (List.range act.length).map (chainWord sr)

/-- The latch pulse and the end of the blanking (R204): nothing is armed yet. -/
theorem driveAll_latchAndShow_three (sdata aux : Level) (c : Chain) :
    driveAll (⟨.one, .zero, .zero, .zero, .zero, sdata, aux⟩, c) (latchAndShow.take 3) =
      (⟨.zero, .zero, .zero, .zero, .zero, sdata, aux⟩, ⟨c.sr, latched c.sr c.act, c.disp, false⟩) := rfl

/-- The greyscale-clock assert edge arms what was latched (R206). -/
theorem driveAll_latchAndShow_four (sdata aux : Level) (c : Chain) :
    driveAll (⟨.one, .zero, .zero, .zero, .zero, sdata, aux⟩, c) (latchAndShow.take 4) =
      (⟨.zero, .zero, .one, .zero, .zero, sdata, aux⟩, ⟨c.sr, latched c.sr c.act, latched c.sr c.act, false⟩) := rfl

/-- The end of a TRANSMIT (R204, R206). -/
theorem driveAll_latchAndShow (sdata aux : Level) (c : Chain) :
    driveAll (⟨.one, .zero, .zero, .zero, .zero, sdata, aux⟩, c) latchAndShow =
      (⟨.zero, .zero, .zero, .zero, .zero, sdata, aux⟩, ⟨c.sr, latched c.sr c.act, latched c.sr c.act, false⟩) := rfl

/-- Word w of a register that holds a frame's whole stream is output w of the frame (R54, R150). -/
theorem chainWord_of_stream (values : List Word12) (w : Nat) (v : Word12) (h : values.length % 16 = 0)
    (hv : values[w]? = some v) : chainWord ((stream (greyFrame values)).reverse.map Level.ofBool) w = .value v := by
  apply chainWord_eq_value
  rw [stream_greyFrame values h, List.reverse_flatMap, List.reverse_reverse, ← List.map_drop, ← List.map_take,
    take_drop_flatMap_const 12 (List.reverse ∘ bits12) (by simp) values w v hv]
  rfl

/-- Latching a register that holds a frame's whole stream gives the frame's values (R150, R204). -/
theorem latched_of_stream (values : List Word12) (act : List Grey) (h : values.length % 16 = 0)
    (hact : act.length = values.length) :
    latched ((stream (greyFrame values)).reverse.map Level.ofBool) act = values.map .value := by
  apply List.ext_getElem (by simp [latched, hact])
  intro w hw hw'
  simp only [latched, List.getElem_map, List.getElem_range]
  exact chainWord_of_stream values w _ h (List.getElem?_eq_getElem (by simpa using hw'))

/-- The last bit of a stream is bit 0 of the last byte (R51). -/
theorem sdataAfter_stream (sdata : Level) (f : Frame) (hf : f ≠ []) :
    sdataAfter sdata (stream f) = Level.ofBool ((f.getLastD 0).getLsbD 0) := by
  obtain ⟨g, b, rfl⟩ := f.eq_nil_or_concat.resolve_left hf
  simp [sdataAfter, stream_append, bits8]

end Sys2Proof.Machine
end

section
/-! SUPPORT. What a TRANSMIT leaves, and what is seen while it runs (41_chip_link.md section 4, 60_exceptions.md section 4). -/

namespace Sys2Proof.Machine

theorem shiftBits_length (bits : List Bool) : (bits.flatMap shiftBit).length = 3 * bits.length := by
  induction bits with
  | nil => rfl
  | cons b bits ih => rw [List.flatMap_cons, List.length_append, ih, List.length_cons, Nat.mul_succ, Nat.add_comm]; rfl

/-- The shift splits between two bits (R147). -/
theorem shiftFrame_split (f : Frame) (m : Nat) :
    shiftFrame f = ((stream f).take m).flatMap shiftBit ++ ((stream f).drop m).flatMap shiftBit := by
  rw [← List.flatMap_append, List.take_append_drop, shiftFrame]

/-- The state after a whole TRANSMIT of the frame `f` of `values` (R150, R151). -/
def State.transmitted (s : State) (later : List Command) (f : Frame) (values : List Word12) : State where
  lines := ⟨.zero, .zero, .zero, .zero, .zero, Level.ofBool ((f.getLastD 0).getLsbD 0), s.lines.aux⟩
  pend := []
  code := .ok
  config := s.config
  chain := ⟨(stream f).reverse.map Level.ofBool, values.map .value, values.map .value, false⟩
  inbox := later
  returned := s.returned
  resetIn := s.resetIn.drop (576 * s.config.n + 7)

section Transmit

variable (s : State) (c : Command) (later : List Command) (values : List Word12)

/-- The chain before the latch pulse holds the whole frame (R150). -/
theorem State.driveAll_shiftPhase (hinv : s.Inv) (hp : s.pend = []) (hv : values.length = 16 * s.config.n) :
    driveAll (s.lines, s.chain) (shiftPhase s.config.blankOrder (greyFrame values)) =
      (⟨.one, .zero, .zero, .zero, .zero, Level.ofBool (((greyFrame values).getLastD 0).getLsbD 0), s.lines.aux⟩,
       ⟨(stream (greyFrame values)).reverse.map Level.ofBool, s.chain.act, s.chain.disp,
        s.chain.shifting || !(stream (greyFrame values)).isEmpty⟩) := by
  have hidle := hinv.idle s hp
  obtain ⟨⟨hn, -⟩, ⟨hsr, -, -⟩, -⟩ := hinv
  have hlen := greyFrame_length values s.config.n hv
  have hne : greyFrame values ≠ [] := List.ne_nil_of_length_pos (by omega)
  have hfull : (stream (greyFrame values)).length = s.chain.sr.length := by
    rw [stream_length, hlen, hsr, Config.cells]
    omega
  rw [Machine.driveAll_shiftPhase _ _ _ _ hidle, shifted_of_full _ _ hfull, sdataAfter_stream _ _ hne]

/-- The values that the latch pulse copies (R150, R204). -/
theorem State.latched_values (hinv : s.Inv) (hv : values.length = 16 * s.config.n) :
    latched ((stream (greyFrame values)).reverse.map Level.ofBool) s.chain.act = values.map .value := by
  obtain ⟨-, ⟨-, hact, -⟩, -⟩ := hinv
  exact latched_of_stream values s.chain.act (by omega) (hact.trans hv.symm)

/-- The run of a TRANSMIT into its last five events (R147, R148). -/
theorem State.run_transmit_tail (hp : s.pend = []) (hi : s.inbox = c :: later)
    (hdecode : decode c = .command (.transmit 0 (greyFrame values))) (hv : values.length = 16 * s.config.n) (j : Nat)
    (hj : j ≤ 5) (hq : s.resetQuiet (576 * s.config.n + 1 + j + 1)) :
    s.run (576 * s.config.n + 1 + j + 1) =
      .next (s.during later (shiftPhase s.config.blankOrder (greyFrame values) ++ latchAndShow.take j)
        (latchAndShow.drop j)) := by
  have hlen := greyFrame_length values s.config.n hv
  have hes : (shiftPhase s.config.blankOrder (greyFrame values) ++ latchAndShow.take j).length =
      576 * s.config.n + 1 + j := by
    have hj' : j ≤ latchAndShow.length := hj
    rw [List.length_append, shiftPhase_length, hlen, List.length_take_of_le hj']
    omega
  have hsplit : txEvents s.config.blankOrder (greyFrame values) =
      (shiftPhase s.config.blankOrder (greyFrame values) ++ latchAndShow.take j) ++ latchAndShow.drop j := by
    rw [List.append_assoc, List.take_append_drop, txEvents_eq]
  have hrun := s.run_transmit c later (greyFrame values) _ _ hp hi hdecode hlen hsplit
  rw [hes] at hrun
  exact hrun hq

/-- The end-state law of TRANSMIT, in either order (R150, R151). -/
theorem State.run_transmit_all (hinv : s.Inv) (hp : s.pend = []) (hi : s.inbox = c :: later)
    (hdecode : decode c = .command (.transmit 0 (greyFrame values))) (hv : values.length = 16 * s.config.n)
    (hq : s.resetQuiet (576 * s.config.n + 7)) :
    s.run (576 * s.config.n + 7) = .next (s.transmitted later (greyFrame values) values) := by
  have hlen : (shiftPhase s.config.blankOrder (greyFrame values) ++ latchAndShow).length = 576 * s.config.n + 6 := by
    rw [← txEvents_eq, txEvents_length, greyFrame_length values s.config.n hv]
    omega
  have hne : shiftPhase s.config.blankOrder (greyFrame values) ++ latchAndShow ≠ [] :=
    List.ne_nil_of_length_pos (by omega)
  have hall : latchAndShow.take 5 = latchAndShow := rfl
  have hnone : latchAndShow.drop 5 = [] := rfl
  refine (s.run_transmit_tail c later values hp hi hdecode hv 5 (by omega) hq).trans ?_
  rw [hall, hnone, State.during, hlen, driveAll_append, s.driveAll_shiftPhase values hinv hp hv, driveAll_latchAndShow,
    s.latched_values values hinv hv, if_neg hne]
  rfl

end Transmit

/-- Every armed value of a completed TRANSMIT shows (R208). -/
theorem State.transmitted_light (s : State) (later : List Command) (f : Frame) (values : List Word12) (i : Nat) (v : Word12)
    (hv : values[i]? = some v) : (s.transmitted later f values).light i = (Grey.value v).light :=
  State.light_of_disp _ i _ rfl rfl (by simp [State.transmitted, hv])

/-- The chain keeps its size over a completed TRANSMIT (R200). -/
theorem State.transmitted_sized (s : State) (later : List Command) (values : List Word12)
    (hv : values.length = 16 * s.config.n) : (s.transmitted later (greyFrame values) values).sized := by
  have hlen := greyFrame_length values s.config.n hv
  refine ⟨?_, ?_, ?_⟩
  · show ((stream (greyFrame values)).reverse.map Level.ofBool).length = 192 * s.config.n
    rw [List.length_map, List.length_reverse, stream_length, hlen]
    omega
  · exact (List.length_map _).trans hv
  · exact (List.length_map _).trans hv

/-- In the CONTRACT order BLANK is at 1 from the first event to the end of the latch pulse (R152). -/
theorem blank_during_contract (l : Lines) (c : Chain) (f : Frame) (k : Nat) (hk : 1 ≤ k) (hk' : k ≤ 24 * f.length + 3) :
    (driveAll (l, c) ((txEvents .contract f).take k)).1.blank = .one := by
  obtain ⟨j, rfl⟩ : ∃ j, k = j + 1 := ⟨k - 1, by omega⟩
  have hsplit : shiftFrame f ++ latchAndShow = (shiftFrame f ++ latchAndShow.take 2) ++ latchAndShow.drop 2 := by
    rw [List.append_assoc, List.take_append_drop]
  have htake : (txEvents .contract f).take (j + 1) =
      ⟨.blank, true⟩ :: (shiftFrame f ++ latchAndShow.take 2).take j := by
    have hlen : (shiftFrame f ++ latchAndShow.take 2).length = 24 * f.length + 2 := by
      rw [List.length_append, shiftFrame_length]
      rfl
    rw [txEvents, List.take_succ_cons, hsplit, List.take_append_of_le_length (by omega)]
  have hpulse : ∀ e ∈ latchAndShow.take 2, e.line ≠ .blank := by decide
  rw [htake, driveAll_cons, driveAll_blank]
  · rfl
  · intro e he
    rcases List.mem_append.mp (List.mem_of_mem_take he) with hshift | hlatch
    · rcases shiftFrame_line f e hshift with hline | hline <;> rw [hline] <;> decide
    · exact hpulse e hlatch

/-- In the REFERENCE order the shift leaves BLANK as it was (R148). -/
theorem blank_during_reference (l : Lines) (c : Chain) (f : Frame) (k : Nat) (hk : k ≤ 24 * f.length) :
    (driveAll (l, c) ((txEvents .reference f).take k)).1.blank = l.blank := by
  rw [txEvents, List.take_append_of_le_length (by rwa [shiftFrame_length]), driveAll_blank]
  intro e he
  rcases shiftFrame_line f e (List.mem_of_mem_take he) with hline | hline <;> rw [hline] <;> decide

/-- In the REFERENCE order BLANK is asserted after the shift (R148). -/
theorem blank_after_shift_reference (l : Lines) (c : Chain) (f : Frame) :
    (driveAll (l, c) ((txEvents .reference f).take (24 * f.length + 1))).1.blank = .one := by
  have htake : (txEvents .reference f).take (24 * f.length + 1) = shiftFrame f ++ [⟨.blank, true⟩] := by
    have hlen : (shiftFrame f).length = 24 * f.length := shiftFrame_length f
    rw [txEvents, List.take_append, hlen, List.take_of_length_le (by omega), Nat.add_sub_cancel_left]
    rfl
  rw [htake, driveAll_append]
  rfl

/-- In the REFERENCE order SHIFTING is 1 from the second event to the end of the shift (R39, R148). -/
theorem shifting_during_reference (l : Lines) (c : Chain) (f : Frame) (k : Nat) (hl : l.sclk = .zero) (hk : 2 ≤ k)
    (hk' : k ≤ 24 * f.length) : (driveAll (l, c) ((txEvents .reference f).take k)).2.shifting = true := by
  obtain ⟨j, rfl⟩ : ∃ j, k = j + 2 := ⟨k - 2, by omega⟩
  obtain ⟨d, bits, hbits⟩ : ∃ d bits, stream f = d :: bits :=
    List.exists_cons_of_length_pos (by rw [stream_length]; omega)
  have hshift : shiftFrame f = ⟨.sdata, d⟩ :: ⟨.sclk, true⟩ :: (⟨.sclk, false⟩ :: bits.flatMap shiftBit) := by
    rw [shiftFrame, hbits]
    rfl
  rw [txEvents, List.take_append_of_le_length (by rwa [shiftFrame_length]), hshift, List.take_succ_cons,
    List.take_succ_cons, driveAll_cons, driveAll_cons]
  apply driveAll_shifting
  · have hsclk : (l.drive ⟨.sdata, d⟩).sclk ≠ .one := by
      show l.sclk ≠ .one
      rw [hl]
      decide
    show ((c.react l ⟨.sdata, d⟩).react (l.drive ⟨.sdata, d⟩) ⟨.sclk, true⟩).shifting = true
    rw [Chain.react_sclk _ _ hsclk, Chain.onSclk_shifting]
  · intro e he
    have hmem : e ∈ shiftFrame f := by
      rw [hshift]
      exact List.mem_cons_of_mem _ (List.mem_cons_of_mem _ (List.mem_of_mem_take he))
    rcases shiftFrame_line f e hmem with hline | hline <;> rw [hline] <;> decide

/-- The chain after `m` bits of a TRANSMIT, in either order (R211). -/
theorem State.run_partialShift (s : State) (c : Command) (later : List Command) (f : Frame) (m k : Nat) (hinv : s.Inv)
    (hp : s.pend = []) (hi : s.inbox = c :: later) (hdecode : decode c = .command (.transmit 0 f))
    (hf : f.length = 24 * s.config.n) (hm : m ≤ 192 * s.config.n)
    (horder : s.config.blankOrder = .contract ∧ k = 3 * m + 2 ∨ s.config.blankOrder = .reference ∧ k = 3 * m + 1)
    (hq : s.resetQuiet k) :
    ∃ t, s.run k = .next t ∧ t.chain.sr = shifted ((stream f).take m) s.chain.sr
      ∧ t.chain.act = s.chain.act ∧ t.chain.disp = s.chain.disp := by
  have hidle := hinv.idle s hp
  have hlen : (((stream f).take m).flatMap shiftBit).length = 3 * m := by
    rw [shiftBits_length, List.length_take_of_le (by rw [stream_length]; omega)]
  rcases horder with ⟨hcontract, rfl⟩ | ⟨hreference, rfl⟩
  · have hsplit : txEvents s.config.blankOrder f = (⟨.blank, true⟩ :: ((stream f).take m).flatMap shiftBit) ++
        (((stream f).drop m).flatMap shiftBit ++ latchAndShow) := by
      rw [hcontract, txEvents, shiftFrame_split f m, List.append_assoc, List.cons_append]
    have hrun := s.run_transmit c later f _ _ hp hi hdecode hf hsplit
    rw [List.length_cons, hlen] at hrun
    refine ⟨_, hrun hq, ?_⟩
    rw [State.during_chain, driveAll_blank_shiftBits s.lines s.chain hidle]
    exact ⟨rfl, rfl, rfl⟩
  · have hsplit : txEvents s.config.blankOrder f = ((stream f).take m).flatMap shiftBit ++
        (((stream f).drop m).flatMap shiftBit ++ ⟨.blank, true⟩ :: latchAndShow) := by
      rw [hreference, txEvents, shiftFrame_split f m, List.append_assoc]
    have hrun := s.run_transmit c later f _ _ hp hi hdecode hf hsplit
    rw [hlen] at hrun
    refine ⟨_, hrun hq, ?_⟩
    rw [State.during_chain, driveAll_shiftBits_idle s.lines s.chain hidle]
    exact ⟨rfl, rfl, rfl⟩

/-- With nothing pending the invariant says that AUX is at 0 where it exists (R24). -/
theorem State.Inv.aux_zero (s : State) (h : s.Inv) (hp : s.pend = []) (haux : s.config.nAux = 1) : s.lines.aux = .zero := by
  obtain ⟨-, -, -, -, -, hidle⟩ := h
  rw [hp] at hidle
  simpa [auxIdleAfter, haux] using hidle

/-- The frame of the whole chain has a command word (R8, R83). -/
theorem State.Inv.frameBytes_le (s : State) (h : s.Inv) : 24 * s.config.n ≤ 65535 := by
  obtain ⟨⟨-, hbound⟩, -⟩ := h
  exact hbound

/-- The light of an output whose flag is on or off (R208). -/
theorem Grey.light_of_flag (f : Bool) : (Grey.value (if f then 4095 else 0)).light = if f then .full else .off := by
  cases f <;> rfl

/-- The commands of SHOW for as many flags as the chain has outputs (R92). -/
theorem showCommands_eq (flags : List Bool) (h : flags.length % 16 = 0) :
    showCommands flags = [encode (.encodeOnoff 0 flags), encode (.transmit 0 (onoffFrame flags))] := by
  rw [showCommands, wholeChips_eq_decide, decide_eq_true h, if_pos rfl]

/-- The first step of SHOW: the ENCODE_ONOFF completes and returns its frame (R110, R112). -/
theorem State.step_encodeOnoff (s : State) (flags : List Bool) (later : List Command) (hp : s.pend = [])
    (hi : s.inbox = encode (.encodeOnoff 0 flags) :: later) (hr : s.resetNow = false) (h16 : flags.length % 16 = 0)
    (hcount : flags.length ≤ Config.maxCount) :
    step s = .next (({ s.tick with inbox := later } : State).returnFrame (onoffFrame flags)) := by
  have hdecode : decode (encode (.encodeOnoff 0 flags)) = .command (.encodeOnoff 0 flags) :=
    decode_encode _ (decide_eq_true hcount)
  rw [step_of_accepting s _ later hp hi hr, accept_of_command _ _ _ hdecode, exec_encodeOnoff_zero, if_pos h16]

end Sys2Proof.Machine

namespace Sys2Proof.Proofs

open Sys2Proof.Machine

/-- Settles O35: the two operand checks, in their order. -/
theorem transmitRejectsBeforeAnyEvent : Obligations.TransmitRejectsBeforeAnyEvent := by
  intro pos F s
  refine ⟨fun hpos => exec_transmit_reserved pos F s hpos, ?_⟩
  rintro rfl hlen
  exact (exec_transmit_zero F s).trans (if_neg hlen)

/-- Settles O36: the shift by the spec's own index, and the two orders. -/
theorem transmitQueuesTheProtocol : Obligations.TransmitQueuesTheProtocol := by
  intro F s hF
  refine ⟨shiftFrame F, shiftFrame_eq_flatMap_range F, fun horder => ?_, fun horder => ?_⟩
  · rw [exec_transmit_zero, if_pos hF, horder]
    simp [State.begin, txEvents, latchAndShow]
  · rw [exec_transmit_zero, if_pos hF, horder]
    simp [State.begin, txEvents, latchAndShow]

/-- Settles O37: 24 events a byte and 6 more; each bit raises SCLK once, and the last five events raise the other two once. -/
theorem transmitEventCounts : Obligations.TransmitEventCounts := by
  intro order F N hF
  have hlatch : (shiftFrame F).count ⟨.latch, true⟩ = 0 :=
    List.count_eq_zero.mpr (not_mem_shiftFrame F _ (by decide) (by decide))
  have hgsclk : (shiftFrame F).count ⟨.gsclk, true⟩ = 0 :=
    List.count_eq_zero.mpr (not_mem_shiftFrame F _ (by decide) (by decide))
  have hend : latchAndShow.count ⟨.sclk, true⟩ = 0 ∧ latchAndShow.count ⟨.latch, true⟩ = 1
      ∧ latchAndShow.count ⟨.gsclk, true⟩ = 1 := by decide
  obtain ⟨hendSclk, hendLatch, hendGsclk⟩ := hend
  refine ⟨by rw [txEvents_length]; omega, ?_, ?_, ?_⟩
  · rw [txEvents_eq, List.count_append, shiftPhase_count _ _ _ (by decide), shiftFrame_count_sclk, hendSclk]
    omega
  · rw [txEvents_eq, List.count_append, shiftPhase_count _ _ _ (by decide), hlatch, hendLatch]
  · rw [txEvents_eq, List.count_append, shiftPhase_count _ _ _ (by decide), hgsclk, hendGsclk]

/-- Settles O38: after k events the other ones are pending, and the last one completes the command. -/
theorem transmitRunsToCompletion : Obligations.TransmitRunsToCompletion := by
  intro s c later F hp hi hdecode hF hq
  have hlen : (txEvents s.config.blankOrder F).length = 576 * s.config.n + 6 := by
    rw [txEvents_length]
    omega
  constructor
  · intro k hk
    have hquiet : s.resetQuiet (k + 1) := fun hmem => hq (List.take_subset_take_left s.resetIn (by omega) hmem)
    have hrest : ((txEvents s.config.blankOrder F).drop k).length = 576 * s.config.n + 6 - k := by
      rw [List.length_drop, hlen]
    have hne : (txEvents s.config.blankOrder F).drop k ≠ [] := List.ne_nil_of_length_pos (by omega)
    exact ⟨_, s.run_transmit_take c later F k hp hi hdecode hF (by omega) hquiet, (State.busy_iff _).mpr hne, hrest,
      rfl, rfl, s.during_code_of_busy later _ _ hne⟩
  · have hrun := s.run_transmit c later F _ [] hp hi hdecode hF (List.append_nil _).symm
    rw [hlen] at hrun
    exact ⟨_, hrun hq, State.busy_eq_false _ rfl, rfl, rfl, rfl, s.during_code_of_done later _ (txEvents_ne_nil _ F)⟩

/-- Settles O39: the end-state law. -/
theorem completedTransmitLeavesTheFrame : Obligations.CompletedTransmitLeavesTheFrame := by
  rintro s c later F V hinv hp hi hdecode hV rfl hq
  exact ⟨_, s.run_transmit_all c later V hinv hp hi hdecode hV hq,
    fun w v hv => chainWord_of_stream V w v (by omega) hv, rfl, rfl, rfl, rfl, fun haux => hinv.aux_zero s hp haux,
    rfl, rfl, rfl, s.transmitted_sized later V hV⟩

/-- Settles O40: BLANK is at 1 through the latch pulse, then what was armed before shows, then what was latched. -/
theorem lightDuringAContractTransmit : Obligations.LightDuringAContractTransmit := by
  rintro s c later F V k hinv horder hp hi hdecode hV rfl hk hk' hq
  have hlen := greyFrame_length V s.config.n hV
  have hlight : ∀ i < 16 * s.config.n, (V.map Grey.value)[i]? = some (Grey.value (V.getD i 0)) := fun i hin => by
    simp [List.getD_eq_getElem?_getD, hV, hin]
  rcases (by omega : k ≤ 576 * s.config.n + 3 ∨ k = 576 * s.config.n + 1 + 3 ∨ k = 576 * s.config.n + 1 + 4
    ∨ k = 576 * s.config.n + 1 + 5) with hphase | rfl | rfl | rfl
  · refine ⟨_, s.run_transmit_take c later _ k hp hi hdecode hlen hk' hq, fun i _ =>
      ⟨fun _ => ?_, by omega, by omega⟩⟩
    rw [horder]
    exact State.light_of_blank_one _ i (blank_during_contract s.lines s.chain _ k hk (by omega))
  · refine ⟨_, s.run_transmit_tail c later V hp hi hdecode hV 3 (by omega) hq, fun i _ =>
      ⟨by omega, fun _ => ?_, by omega⟩⟩
    rw [State.during, driveAll_append, s.driveAll_shiftPhase V hinv hp hV, driveAll_latchAndShow_three]
    exact State.light_of_armed _ i rfl rfl
  · refine ⟨_, s.run_transmit_tail c later V hp hi hdecode hV 4 (by omega) hq, fun i hin =>
      ⟨by omega, by omega, fun _ => ?_⟩⟩
    rw [State.during, driveAll_append, s.driveAll_shiftPhase V hinv hp hV, driveAll_latchAndShow_four,
      s.latched_values V hinv hV]
    exact State.light_of_disp _ i _ rfl rfl (hlight i hin)
  · refine ⟨_, s.run_transmit_all c later V hinv hp hi hdecode hV hq, fun i hin =>
      ⟨by omega, by omega, fun _ => ?_⟩⟩
    exact s.transmitted_light later _ V i _ (by simp [List.getD_eq_getElem?_getD, hV, hin])

/-- Settles O41: BLANK stays at 0 through the shift, in which SHIFTING is 1, and is asserted after it. -/
theorem glitchWindowInTheReferenceOrder : Obligations.GlitchWindowInTheReferenceOrder := by
  intro s c later F k hinv horder hblank hp hi hdecode hF hk hk' hq
  obtain ⟨-, -, -, hsclk, -, -⟩ := (Lines.idle_iff _).mp (hinv.idle s hp)
  refine ⟨_, s.run_transmit_take c later F k hp hi hdecode hF (by omega) hq, fun i => ?_⟩
  by_cases hshift : k ≤ 576 * s.config.n
  · rw [if_pos hshift, horder]
    exact State.light_of_glitch _ i ((blank_during_reference s.lines s.chain F k (by omega)).trans hblank)
      (shifting_during_reference s.lines s.chain F k hsclk hk (by omega))
  · obtain rfl : k = 24 * F.length + 1 := by rw [hF]; omega
    rw [if_neg hshift, horder]
    exact State.light_of_blank_one _ i (blank_after_shift_reference s.lines s.chain F)

/-- Settles O42: cell by cell, what the shift of m bits leaves. -/
theorem partialShiftMixesOldAndNew : Obligations.PartialShiftMixesOldAndNew := by
  intro s c later F m k hinv hp hi hdecode hF hm horder hq
  obtain ⟨t, hrun, hsr, hact, hdisp⟩ := s.run_partialShift c later F m k hinv hp hi hdecode hF hm horder hq
  have hbits : ((stream F).take m).length = m := List.length_take_of_le (by rw [stream_length]; omega)
  have hcells : s.chain.sr.length = 192 * s.config.n := by
    obtain ⟨-, ⟨hcells, -, -⟩, -⟩ := hinv
    exact hcells
  refine ⟨t, hrun, fun q hqm => ?_, fun q hqm hqn => ?_, hact, hdisp⟩
  · rw [hsr, getElem?_shifted_of_lt _ _ q (by omega) (by omega), hbits, List.getElem?_take_of_lt (by omega)]
  · rw [hsr, getElem?_shifted_of_ge _ _ q (by omega) (by omega), hbits]

/-- Settles O43: the ENCODE_ONOFF returns the frame of the flags' values, and the TRANSMIT of it ends with them armed. -/
theorem showLightsExactlyTheOutputsThatAreOn : Obligations.ShowLightsExactlyTheOutputsThatAreOn := by
  intro s S later hinv hp hS hi hq
  have h16 : S.length % 16 = 0 := by omega
  have hbound : 24 * s.config.n ≤ 65535 := hinv.frameBytes_le s
  have hframe : (onoffFrame S).length = 24 * s.config.n := frameLengthLaw S s.config.n hS
  rw [showCommands_eq S h16] at hi
  obtain ⟨hr, hq'⟩ := s.resetQuiet_succ (576 * s.config.n + 7) hq
  have hstep := s.step_encodeOnoff S _ hp hi hr h16 (show S.length ≤ 65535 by omega)
  have hdecode : decode (encode (.transmit 0 (onoffFrame S))) = .command (.transmit 0 (onoffFrame S)) :=
    decode_encode _ (decide_eq_true (show (onoffFrame S).length ≤ 65535 by omega))
  rw [onoffFrame_eq_greyFrame] at hdecode
  have hinv' := everyStepKeepsTheInvariant s _ hinv hstep
  have hrun := State.run_transmit_all _ _ later (S.map fun f => if f then 4095 else 0) hinv' hp
    (by simp [onoffFrame_eq_greyFrame]) hdecode (by simpa using hS) hq'
  refine ⟨_, (State.run_succ s _ _ hstep).trans hrun, fun i f hf => ?_, rfl, ?_, rfl⟩
  · rw [State.transmitted_light _ later _ _ i (if f then 4095 else 0) (by simp [hf]), Grey.light_of_flag]
  · apply BitVec.eq_of_toNat_eq
    rw [State.status_toNat]
    rfl

end Sys2Proof.Proofs
end
